-- ==== Sys2Proof/Word.lean ====
section
/-! DEFINITION. The word widths of RPADC (spec/10_state.md R26): host registers are 32 bits or narrower, a device
command or configuration byte is 8 bits, a raw sample or a word read from the transport is 16 bits. -/

namespace Sys2Proof

/-- A device command, configuration or status byte, or a bus address. -/
abbrev Byte := BitVec 8

/-- A raw sample, or the two bytes a READ_WORD returns. -/
abbrev Half := BitVec 16

/-- One word of the host port; an fx32 number is the two's complement integer of such a word (R190). -/
abbrev Word := BitVec 32

end Sys2Proof
end

