-- ==== Sys2Proof/Config.lean ====
section
/-! DEFINITION. The free values of the model: what the outside world drives on the input pins at an edge for which no
cycle is scripted. The spec leaves the transport and the device to a parameter it calls `oracle`
(spec/92_eei_decisions.md D35, spec/41_transport_device_commands.md R151) and the host and the timebase to the
environment (spec/00_scope.md R11). Each is an uninterpreted function of the number of the edge: nothing in Lean can
evaluate one or prove a value of it. [DESIGN CHOICE, log 2] The last three are what the spec leaves open behind the
transport port (U2, U3, U5). [DESIGN CHOICE, log 5, log 7, log 8] -/

namespace Sys2Proof

/-- `rst` at edge `n` (R20). -/
opaque Config.freeRst : Nat → Bool

/-- `tick_us` at edge `n` (R21). -/
opaque Config.freeTick : Nat → Bool

/-- `t_ack` at edge `n` (R24). -/
opaque Config.freeAck : Nat → Bool

/-- `t_err` at edge `n` (R24). -/
opaque Config.freeErr : Nat → Bool

/-- `t_rdata` at edge `n` (R24). -/
opaque Config.freeRdata : Nat → Half

/-- `h_we ++ h_addr ++ h_wdata` at edge `n` (R22, R108). -/
opaque Config.freeHostWord : Nat → BitVec 38

/-- The bus address a transaction at edge `n` goes to while none is selected (R260, U3). -/
opaque Config.freeTarget : Nat → Byte

/-- The content of a device's configuration register after a transaction at edge `n` that leaves it open (U2, U5). -/
opaque Config.freeDevConfig : Nat → Byte

/-- The conversion a device has begun, none or one with some configuration, after such a transaction (U2, U5). -/
opaque Config.freeDevRun : Nat → Option Byte

end Sys2Proof
end

