-- ==== Sys2Proof/Syntax.lean ====
section
/-! DEFINITION. The instructions of RPADC: one constructor per row of spec/opcode_table.json
(spec/30_encoding.md R108, spec/00_scope.md R10), the raw words they are written in, and the five operations of the
transport port (R102). -/

namespace Sys2Proof

/-- One raw word of a format of spec/opcode_table.json (R108). The widths are those the table writes its masks in;
no such word exists on a wire. -/
inductive PortWord where
  /-- HOST38 and HOSTOP: `h_we ++ h_addr[4:0] ++ h_wdata[31:0]`. -/
  | host (w : BitVec 38)
  /-- DEVCMD8: the command byte `t_a[7:0]`. -/
  | devCmd (w : BitVec 8)
  /-- DEVCMD8_DATA8: `t_a ++ t_b`. -/
  | devCmdData (w : BitVec 16)
  /-- TREQ19: `t_op[2:0] ++ t_a[7:0] ++ t_b[7:0]`. -/
  | treq (w : BitVec 19)
  deriving DecidableEq, Repr

/-- The five operations of the transport port (R102). -/
inductive TOp where
  | select | writeCmd | writeCmdData | readByte | readWord
  deriving DecidableEq, Repr

/-- One request of the transport port: `t_op`, `t_a`, `t_b` (R23). -/
structure TReq where
  op : TOp
  a  : Byte
  b  : Byte
  deriving DecidableEq, Repr

/-- The twelve host operations issued through register CMD (R101). -/
inductive HostOp where
  | select | devReset | wrcfg | start | waitrdy | rdraw | capture
  | code2v | v2in | dcal | v2ph | v2phu
  deriving DecidableEq, Repr

/-- The instructions. A field the table calls `ignored` is kept, so that no bit of a word is dropped. -/
inductive Instr where
  /-- RD, host register read (R120); `h_wdata` is ignored. -/
  | rd (addr : BitVec 5) (ignored : Word)
  /-- WR, host register write (R121). A write of a defined op code to CMD is the operation's own constructor. -/
  | wr (addr : BitVec 5) (data : Word)
  /-- SELECT, op code 1 (R160). -/
  | select (ignored : BitVec 28)
  /-- DEVRESET, op code 2 (R161). -/
  | devReset (ignored : BitVec 28)
  /-- WRCFG, op code 3 (R162). -/
  | wrcfg (ignored : BitVec 28)
  /-- START, op code 4 (R163). -/
  | start (ignored : BitVec 28)
  /-- WAITRDY, op code 5 (R164). -/
  | waitrdy (ignored : BitVec 28)
  /-- RDRAW, op code 6 (R166). -/
  | rdraw (ignored : BitVec 28)
  /-- CAPTURE, op code 7 (R167). -/
  | capture (ignored : BitVec 28)
  /-- CODE2V, op code 8 (R201). -/
  | code2v (ignored : BitVec 28)
  /-- V2IN, op code 9 (R203). -/
  | v2in (ignored : BitVec 28)
  /-- DCAL, op code 10 (R205). -/
  | dcal (ignored : BitVec 28)
  /-- V2PH, op code 11 (R209). -/
  | v2ph (ignored : BitVec 28)
  /-- V2PHU, op code 12 (R211). -/
  | v2phu (ignored : BitVec 28)
  /-- DEV_RESET, command byte 0x06 (R140). -/
  | dvReset
  /-- DEV_START_SYNC, command byte 0x08 (R141). -/
  | dvStartSync
  /-- DEV_READ_DATA, command byte 0x10 (R142). -/
  | dvReadData
  /-- DEV_READ_CONFIG, command byte 0x20 (R143). -/
  | dvReadConfig
  /-- DEV_READ_STATUS, command byte 0x24 (R144). -/
  | dvReadStatus
  /-- DEV_WRITE_CONFIG, command byte 0x40 and the configuration byte mux, gain, 0000 (R145, R93). -/
  | dvWriteConfig (mux : BitVec 3) (gain : BitVec 1)
  /-- T_SELECT, transport operation 0 (R146). -/
  | tSelect (a b : Byte)
  /-- T_WRITE_CMD, transport operation 1 (R147). -/
  | tWriteCmd (a b : Byte)
  /-- T_WRITE_CMD_DATA, transport operation 2 (R148). -/
  | tWriteCmdData (a b : Byte)
  /-- T_READ_BYTE, transport operation 3 (R149). -/
  | tReadByte (a b : Byte)
  /-- T_READ_WORD, transport operation 4 (R150). -/
  | tReadWord (a b : Byte)
  deriving DecidableEq, Repr

end Sys2Proof
end

