-- ==== Sys2Proof/Machine/State.lean ====
section
/-! DEFINITION. The state of RPADC, its reset value and the reasons a step can stop. The block's registers are those of
spec/10_state.md R26 to R50; the fields after them are the environment the spec gives effects on and the inputs. -/

namespace Sys2Proof.Machine

/-- The nine FSM states of `st` (R49, R100). -/
inductive St where
  | idle | tSel | tRst | tCfg | tStart | tPoll | wDelay | tRead | scExec
  deriving DecidableEq, Repr

/-- STATUS.OUTCOME (R31, R103). -/
inductive OutcomeCode where
  | none | ok | timeout | errTransport | errConfig | errDivZero | errOverflow
  deriving DecidableEq, Repr

/-- STATUS.ERRSTEP (R32, R104). -/
inductive ErrStep where
  | none | select | reset | wrcfg | start | poll | read
  deriving DecidableEq, Repr

/-- The input pins at one rising edge, besides the port word (R20, R21, R24). -/
structure Pins where
  rst   : Bool
  tick  : Bool
  ack   : Bool
  err   : Bool
  rdata : Half
  deriving DecidableEq, Repr

/-- What the outside world drives in one clock cycle: a port word and the input pins. A `host` word is the host port's
`h_we`, `h_addr`, `h_wdata`; a word of another format is a transaction on the transport port, with `h_we = 0`
[DESIGN CHOICE, log 3]. -/
structure Cycle where
  word : PortWord
  pins : Pins
  deriving DecidableEq, Repr

/-- Sparse memory: (address, byte) pairs, addresses strictly rising. What an unlisted address stands for is said at each
field. -/
abbrev Memory := List Host.Cell

/-- The state. Registers are named after spec/10_state.md R26. -/
structure State where
  /-- R49: FSM state, the block's program counter. -/
  st : St
  /-- R50: inter-poll delay counter. -/
  dl : BitVec 16
  /-- CMD, register 0 (R27). -/
  cmd : BitVec 4
  /-- STATUS.DONE (R30). -/
  done : Bool
  /-- STATUS.OUTCOME (R31). -/
  outcome : OutcomeCode
  /-- STATUS.ERRSTEP (R32). -/
  errstep : ErrStep
  /-- STATUS.CALV (R33). -/
  calv : Bool
  /-- STATUS.HOSTERR (R34). -/
  hosterr : Bool
  /-- ADDR, register 2 (R35). -/
  addr : Byte
  /-- CFG, register 3 (R36). -/
  cfg : Byte
  /-- EXTREF, register 4 (R37). -/
  extref : Word
  /-- MAXWAIT, register 5 (R38). -/
  maxwait : BitVec 16
  /-- POLLUS, register 6 (R39). -/
  pollus : BitVec 16
  /-- RAW, register 7 (R40). -/
  raw : Half
  /-- ELAPSED, register 8 (R41). -/
  elapsed : Word
  /-- STSHADOW, register 9 (R42). -/
  stshadow : Byte
  /-- FEGAIN, register 10 (R43). -/
  fegain : Word
  /-- CALLO_PH, register 11 (R44). -/
  calloPh : Word
  /-- CALLO_V, register 12 (R44). -/
  calloV : Word
  /-- CALHI_PH, register 13 (R44). -/
  calhiPh : Word
  /-- CALHI_V, register 14 (R44). -/
  calhiV : Word
  /-- SLOPE, register 15 (R45). -/
  slope : Word
  /-- V7, register 16 (R45). -/
  v7 : Word
  /-- THSLOPE, register 17 (R46). -/
  thslope : Word
  /-- VOLTS, register 18 (R47). -/
  volts : Word
  /-- VINPUT, register 19 (R47). -/
  vinput : Word
  /-- PH, register 20 (R48). -/
  ph : Word
  /-- PHU, register 21 (R48). -/
  phu : Word
  /-- The bus address of the last SELECT since reset, none while no SELECT has ended without error since reset or since the
  last failed one: the target is then undefined (R146, R260, U3). [DESIGN CHOICE, log 5] -/
  selected : Option Byte
  /-- The configuration register of the device at each bus address (R74): what was last written. An unlisted address holds
  0x00, the value chosen for before the first write (`devCfgReset`). [DESIGN CHOICE, log 5] -/
  devCfg : Memory
  /-- The addresses whose configuration register the spec leaves open (U2, U5), each with the free value it holds; such an
  address is not listed in `devCfg`. [DESIGN CHOICE, log 7, log 8] -/
  devOpen : Memory
  /-- The configuration with which the device at each bus address last began a conversion (R77, R141); unlisted: it has
  begun none. [DESIGN CHOICE, log 5] -/
  devRun : Memory
  /-- The input pins at the edge being taken (R20, R21, R24). [DESIGN CHOICE, log 1] -/
  pins : Pins
  /-- The cycles the outside world is known to drive next (R11, D35). [DESIGN CHOICE, log 1] -/
  script : List Cycle
  /-- The number of the next edge, the argument of the free inputs. [DESIGN CHOICE, log 2] -/
  edge : Nat
  /-- What `h_rdata` showed in the last host port cycle, one whose edge had `rst = 1` included (R22, R120).
  [DESIGN CHOICE, log 6] -/
  hRdata : Word
  deriving DecidableEq, Repr

/-- No step of this machine faults: an error of the spec ends the operation in flight and is recorded in STATUS
(R233), and a hang is a state that holds (R266). -/
inductive Fault
  deriving DecidableEq, Repr

/-- Why a step has no meaning. -/
inductive Refusal where
  /-- Raised by `exec` for an instruction without a meaning, by its mnemonic. Safe. -/
  | notModelled (mnemonic : String)
  /-- Raised by `step` when the presented word is no row of the opcode table: a transport operation code 5 to 7
  ("never driven", R102), a command byte or a configuration byte outside the six rows (R97, R145). No host word is
  refused. Safe: the block never drives such a word. -/
  | reservedWord
  deriving DecidableEq, Repr

/-- All input pins low: no reset, no tick, no acknowledge. -/
def Pins.quiet : Pins := { rst := false, tick := false, ack := false, err := false, rdata := 0 }

/-- The state right after reset (R52, R251). The last eight fields are the environment and the
model's own: log 1, log 2, log 5, log 6. -/
def State.reset : State where
  st := .idle
  dl := 0
  cmd := 0
  done := false
  outcome := .none
  errstep := .none
  calv := false
  hosterr := false
  addr := 0
  cfg := 0
  extref := 0
  maxwait := 1000
  pollus := 1000
  raw := 0
  elapsed := 0
  stshadow := 0
  fegain := 0
  calloPh := 0
  calloV := 0
  calhiPh := 0
  calhiV := 0
  slope := 0
  v7 := 0
  thslope := 0xFFF0D845
  volts := 0
  vinput := 0
  ph := 0
  phu := 0
  selected := none
  devCfg := []
  devOpen := []
  devRun := []
  pins := Pins.quiet
  script := []
  edge := 0
  hRdata := 0

end Sys2Proof.Machine
end

