-- ==== Sys2Proof/Machine/Flags.lean ====
section
/-! DEFINITION. The STATUS word: its field codes and its assembly (spec/10_state.md R28 to R34, spec/30_encoding.md R100,
R103, R104, spec/40_host_port.md R120). -/

namespace Sys2Proof.Machine

/-- R100: the code of each FSM state. Not visible outside the block. -/
def St.code : St → BitVec 4
  | .idle => 0 | .tSel => 1 | .tRst => 2 | .tCfg => 3 | .tStart => 4
  | .tPoll => 5 | .wDelay => 6 | .tRead => 7 | .scExec => 8

/-- R103: the code of each OUTCOME. -/
def OutcomeCode.code : OutcomeCode → BitVec 3
  | .none => 0 | .ok => 1 | .timeout => 2 | .errTransport => 3 | .errConfig => 4
  | .errDivZero => 5 | .errOverflow => 6

/-- R104: the code of each ERRSTEP. -/
def ErrStep.code : ErrStep → BitVec 3
  | .none => 0 | .select => 1 | .reset => 2 | .wrcfg => 3 | .start => 4 | .poll => 5 | .read => 6

/-- STATUS.BUSY is not stored: `st != IDLE` (R29). -/
def State.busy (s : State) : Bool := decide (s.st ≠ .idle)

/-- STATUS as it is read: `HOSTERR ++ CALV ++ ERRSTEP ++ OUTCOME ++ DONE ++ BUSY` (R28, R120). -/
def State.status (s : State) : BitVec 10 :=
  BitVec.ofBool s.hosterr ++ BitVec.ofBool s.calv ++ s.errstep.code ++ s.outcome.code ++
    BitVec.ofBool s.done ++ BitVec.ofBool s.busy

/-- The output `busy` (R25). -/
def State.busyOut (s : State) : Bool := s.busy

/-- The output `done` (R25). -/
def State.doneOut (s : State) : Bool := s.done

/-- A host protocol error: HOSTERR is set and nothing else happens (R125, R226). -/
def State.hostError (s : State) : State := { s with hosterr := true }

/-- A host write to STATUS: bit 9 written 1 clears HOSTERR; every other bit is ignored (R122). -/
def State.writeStatus (data : Word) (s : State) : State :=
  { s with hosterr := s.hosterr && !data.getLsbD 9 }

end Sys2Proof.Machine
end

