-- ==== Sys2Proof/WellFormed.lean ====
section
/-! DEFINITION. Which terms of `Instr` stand for a word of their own. Every field but one combination is free: the field
widths are in the types, and the formats reserve nothing else (spec/30_encoding.md R105, R108). -/

namespace Sys2Proof

/-- The op codes 1 to 12 are the defined ones; 0, 13, 14 and 15 are reserved (R101, R105). -/
def definedOpCode (op : BitVec 4) : Bool := decide (1 ≤ op.toNat ∧ op.toNat ≤ 12)

/-- A WR to CMD (register 0) of a defined op code is the operation of that code, a constructor of its own, and not
the general `wr` (R101, R126, R127). All other terms are well formed. -/
def Instr.wf : Instr → Bool
  | .wr addr data => !(addr == 0#5 && definedOpCode (data.extractLsb' 0 4))
  | .rd _ _ | .select _ | .devReset _ | .wrcfg _ | .start _ | .waitrdy _ | .rdraw _ | .capture _
  | .code2v _ | .v2in _ | .dcal _ | .v2ph _ | .v2phu _
  | .dvReset | .dvStartSync | .dvReadData | .dvReadConfig | .dvReadStatus | .dvWriteConfig _ _
  | .tSelect _ _ | .tWriteCmd _ _ | .tWriteCmdData _ _ | .tReadByte _ _ | .tReadWord _ _ => true

end Sys2Proof
end

