-- ==== Sys2Proof/Decode.lean ====
section
/-! DEFINITION. The decoder, total on the words of the five formats and rejecting by name, and after it the encoder
(spec/30_encoding.md R91, R93, R101, R102, R105, R108). -/

namespace Sys2Proof

/-- Why a presented word is no row of the table. -/
inductive DecodeError where
  /-- `t_op` is 5, 6 or 7: "never driven" (R102). -/
  | transportOp
  /-- The command byte is none of the five DEVCMD8 rows (R97). -/
  | deviceCommand
  /-- The pair is not command 0x40 followed by a byte with bits 3:0 zero (R93, R96, R145). -/
  | deviceConfig
  deriving DecidableEq, Repr

/-- R101: the op code of each operation. -/
def HostOp.code : HostOp → BitVec 4
  | .select => 1 | .devReset => 2 | .wrcfg => 3 | .start => 4 | .waitrdy => 5 | .rdraw => 6 | .capture => 7
  | .code2v => 8 | .v2in => 9 | .dcal => 10 | .v2ph => 11 | .v2phu => 12

/-- R101, R105: the operation of an op code, none for the reserved codes. -/
def HostOp.ofCode (c : BitVec 4) : Option HostOp :=
  match c.toNat with
  | 1 => some .select | 2 => some .devReset | 3 => some .wrcfg | 4 => some .start | 5 => some .waitrdy
  | 6 => some .rdraw | 7 => some .capture | 8 => some .code2v | 9 => some .v2in | 10 => some .dcal
  | 11 => some .v2ph | 12 => some .v2phu
  | _ => none

/-- The constructor of an operation, with the 28 ignored bits of its word. -/
def HostOp.instr : HostOp → BitVec 28 → Instr
  | .select => .select | .devReset => .devReset | .wrcfg => .wrcfg | .start => .start
  | .waitrdy => .waitrdy | .rdraw => .rdraw | .capture => .capture | .code2v => .code2v
  | .v2in => .v2in | .dcal => .dcal | .v2ph => .v2ph | .v2phu => .v2phu

/-- R102: the codes of `t_op`. -/
def TOp.code : TOp → BitVec 3
  | .select => 0 | .writeCmd => 1 | .writeCmdData => 2 | .readByte => 3 | .readWord => 4

/-- R105, R126: a write to CMD whose bits 3:0 are a defined op code issues that operation; every other write is WR. -/
def decodeWrite (addr : BitVec 5) (data : Word) : Instr :=
  if addr = 0#5 then
    match HostOp.ofCode (data.extractLsb' 0 4) with
    | some op => op.instr (data.extractLsb' 4 28)
    | none => .wr addr data
  else .wr addr data

/-- HOST38 and HOSTOP (R108): bit 37 is `h_we`, bits 36:32 `h_addr`, bits 31:0 `h_wdata`. -/
def decodeHost (w : BitVec 38) : Instr :=
  if w.getLsbD 37 then decodeWrite (w.extractLsb' 32 5) (w.extractLsb' 0 32)
  else .rd (w.extractLsb' 32 5) (w.extractLsb' 0 32)

/-- DEVCMD8 (R91). -/
def decodeDevCmd (w : BitVec 8) : Except DecodeError Instr :=
  match w.toNat with
  | 0x06 => .ok .dvReset
  | 0x08 => .ok .dvStartSync
  | 0x10 => .ok .dvReadData
  | 0x20 => .ok .dvReadConfig
  | 0x24 => .ok .dvReadStatus
  | _ => .error .deviceCommand

/-- DEVCMD8_DATA8 (R93, R145): 0x40, then mux in bits 7:5, gain in bit 4, zero in bits 3:0. -/
def decodeDevCmdData (w : BitVec 16) : Except DecodeError Instr :=
  if w.extractLsb' 8 8 = 0x40#8 ∧ w.extractLsb' 0 4 = 0#4 then
    .ok (.dvWriteConfig (w.extractLsb' 5 3) (w.extractLsb' 4 1))
  else .error .deviceConfig

/-- TREQ19 (R102). -/
def decodeTReq (w : BitVec 19) : Except DecodeError Instr :=
  let a := w.extractLsb' 8 8
  let b := w.extractLsb' 0 8
  match (w.extractLsb' 16 3).toNat with
  | 0 => .ok (.tSelect a b)
  | 1 => .ok (.tWriteCmd a b)
  | 2 => .ok (.tWriteCmdData a b)
  | 3 => .ok (.tReadByte a b)
  | 4 => .ok (.tReadWord a b)
  | _ => .error .transportOp

/-- A word of the host port (HOST38, HOSTOP), not a transaction. -/
def PortWord.isHost : PortWord → Bool
  | .host _ => true
  | .devCmd _ | .devCmdData _ | .treq _ => false

/-- `h_addr` in a host port cycle (R22, R108), none in a cycle with a transaction word. -/
def PortWord.hostAddr : PortWord → Option (BitVec 5)
  | .host w => some (w.extractLsb' 32 5)
  | .devCmd _ | .devCmdData _ | .treq _ => none

/-- The decoder: the instruction a presented word stands for. Every host word is an instruction. -/
def decode : PortWord → Except DecodeError Instr
  | .host w => .ok (decodeHost w)
  | .devCmd w => decodeDevCmd w
  | .devCmdData w => decodeDevCmdData w
  | .treq w => decodeTReq w

/-- The host word of a write of `data` to `addr` (R106). -/
def encodeWrite (addr : BitVec 5) (data : Word) : PortWord := .host (1#1 ++ addr ++ data)

/-- The host word that issues `op` (R106): bits 31:4 are ignored by the block. -/
def encodeOp (op : HostOp) (ignored : BitVec 28) : PortWord := encodeWrite 0#5 (ignored ++ op.code)

/-- The TREQ19 word of a request (R102, R108). -/
def encodeTReq (op : TOp) (a b : Byte) : PortWord := .treq (op.code ++ a ++ b)

/-- The configuration byte (R96): `(mux << 5) | (gain << 4)`. -/
def configByte (mux : BitVec 3) (gain : BitVec 1) : Byte := mux ++ gain ++ 0#4

/-- The word of a well-formed instruction. -/
def encode : Instr → PortWord
  | .rd addr ignored => .host (0#1 ++ addr ++ ignored)
  | .wr addr data => encodeWrite addr data
  | .select x => encodeOp .select x
  | .devReset x => encodeOp .devReset x
  | .wrcfg x => encodeOp .wrcfg x
  | .start x => encodeOp .start x
  | .waitrdy x => encodeOp .waitrdy x
  | .rdraw x => encodeOp .rdraw x
  | .capture x => encodeOp .capture x
  | .code2v x => encodeOp .code2v x
  | .v2in x => encodeOp .v2in x
  | .dcal x => encodeOp .dcal x
  | .v2ph x => encodeOp .v2ph x
  | .v2phu x => encodeOp .v2phu x
  | .dvReset => .devCmd 0x06
  | .dvStartSync => .devCmd 0x08
  | .dvReadData => .devCmd 0x10
  | .dvReadConfig => .devCmd 0x20
  | .dvReadStatus => .devCmd 0x24
  | .dvWriteConfig mux gain => .devCmdData (0x40#8 ++ configByte mux gain)
  | .tSelect a b => encodeTReq .select a b
  | .tWriteCmd a b => encodeTReq .writeCmd a b
  | .tWriteCmdData a b => encodeTReq .writeCmdData a b
  | .tReadByte a b => encodeTReq .readByte a b
  | .tReadWord a b => encodeTReq .readWord a b

/-- The raw word that `w`, numbered as spec/opcode_table.json numbers it, stands for when its row has `nbits` bits in
whole bytes: 8 is DEVCMD8, 16 is DEVCMD8_DATA8, 24 holds the 19 bits of TREQ19, 40 the 38 bits of HOST38 and HOSTOP
(R108). A number with a bit above its format's width is no word of it. [DESIGN CHOICE, log 13] -/
def PortWord.ofTable (nbits w : Nat) : Option PortWord :=
  if nbits ≤ 8 then if w < 2 ^ 8 then some (.devCmd (BitVec.ofNat 8 w)) else none
  else if nbits ≤ 16 then if w < 2 ^ 16 then some (.devCmdData (BitVec.ofNat 16 w)) else none
  else if nbits ≤ 32 then if w < 2 ^ 19 then some (.treq (BitVec.ofNat 19 w)) else none
  else if w < 2 ^ 38 then some (.host (BitVec.ofNat 38 w)) else none

/-- The instruction the decoder reads from the word `w` of a row of `nbits` bits. -/
def decodeTableWord (nbits w : Nat) : Option Instr :=
  match PortWord.ofTable nbits w with
  | none => none
  | some p =>
    match decode p with
    | .ok i => some i
    | .error _ => none

end Sys2Proof
end

