-- ==== Sys2Proof/Machine/Operands.lean ====
section
/-! DEFINITION. Operand forms: bit fields of CFG and of a status byte, the byte swap, the fx32 arithmetic of unit SC and
the six formulas, all as pure functions (spec/30_encoding.md R93 to R99, spec/43_signal_converter.md R190 to R211). -/

namespace Sys2Proof.Machine

/-! Bit fields -/

/-- CFG.VREF, bit 0: 1 selects the external reference (R95). -/
def cfgVref (c : Byte) : Bool := c.getLsbD 0

/-- CFG.GAIN, bit 4: 1 is gain 4x (R94, D19). -/
def cfgGain (c : Byte) : Bool := c.getLsbD 4

/-- The configuration byte sent to the device (R96): MUX and GAIN, bits 3:0 zero. -/
def cfgSent (c : Byte) : Byte := c &&& 0xF0#8

/-- The ready bit of a status byte: bit 7 (R98). -/
def statusReady (b : Byte) : Bool := b.getLsbD 7

/-- `bswap16(w) = w[7:0] ++ w[15:8]` (R8, R67). -/
def bswap16 (w : Half) : Half := w.extractLsb' 0 8 ++ w.extractLsb' 8 8

/-- The configuration check (R165). -/
def cfgOk (c : Byte) (extref : Word) : Bool := !cfgVref c || decide (0 < extref.toInt)

/-- The deadline test, in microseconds (R170). -/
def deadlinePassed (elapsed : Word) (maxwait : BitVec 16) : Bool :=
  decide (maxwait.toNat * 1000 ≤ elapsed.toNat)

/-- ELAPSED counts a tick, saturating at 0xFFFFFFFF (R41, R171). -/
def tickElapsed (e : Word) : Word := if e = 0xFFFFFFFF#32 then e else e + 1

/-! Device command bytes (R6, R91) -/

/-- Reset. -/
def cmdReset : Byte := 0x06
/-- Start/Sync. -/
def cmdStart : Byte := 0x08
/-- ReadData. -/
def cmdRdata : Byte := 0x10
/-- ReadConfigReg. -/
def cmdRconfig : Byte := 0x20
/-- ReadStatusReg. -/
def cmdRstatus : Byte := 0x24
/-- WriteConfigReg. -/
def cmdWconfig : Byte := 0x40

/-! fx32 arithmetic, over the integers (R190 to R198) -/

/-- The scale of fx32 (R9). -/
def fxScale : Int := 16777216

/-- The quotient rounded toward zero: `sign(a) * sign(b) * floor(|a| / |b|)` (R9, R194). -/
def tdiv (a b : Int) : Int := a.sign * b.sign * ((a.natAbs / b.natAbs : Nat) : Int)

/-- The fx32 range test (R9, R196). -/
def inRange (v : Int) : Bool := decide (-2147483648 ≤ v ∧ v ≤ 2147483647)

/-- The internal reference, 2.048 V (R198). -/
def vrefInt : Int := 34359738

/-- The number 7 of the pH formulas (R198). -/
def seven : Int := 117440512

/-- The 32-bit pattern of an fx32 integer that is in range. -/
def fxPattern (v : Int) : Word := BitVec.ofInt 32 v

/-- Product of two fx32 integers (R193). -/
def fxMul (a b : Int) : Int := tdiv (a * b) fxScale

/-- Quotient of two fx32 integers, the divisor not zero (R194). -/
def fxDiv (a b : Int) : Int := tdiv (a * fxScale) b

/-- `code_to_voltage` (R202). -/
def codeToVoltage (code ref g : Int) : Int := tdiv (code * ref) (32768 * g)

/-- `v_to_input` (R204). -/
def vToInput (v gn : Int) : Int := fxDiv v gn

/-- `cal_slope` (R206). -/
def calSlope (lp lv hp hv : Int) : Int := fxDiv (hv - lv) (hp - lp)

/-- `cal_v7` (R207). -/
def calV7 (lp lv s : Int) : Int := fxMul (seven - lp) s + lv

/-- `v_to_ph` (R210). -/
def vToPh (v s z : Int) : Int := seven + fxDiv (v - z) s

/-- `v_to_ph_uncal` (R211). -/
def vToPhUncal (v th : Int) : Int := seven + fxDiv v th

/-- The reference voltage CODE2V takes (R201). -/
def refVoltage (c : Byte) (extref : Word) : Int := if cfgVref c then extref.toInt else vrefInt

/-- The gain divisor CODE2V takes (R201, R94). -/
def gainDivisor (c : Byte) : Int := if cfgGain c then 4 else 1

end Sys2Proof.Machine
end

