-- ==== Sys2Proof/Machine/Ops.lean ====
section
/-! DEFINITION. The named operations every meaning is built from: sparse memory, the host register file, how an
operation is accepted, completes or ends in an error, the request port, and what a transaction does at the device. -/

namespace Sys2Proof.Machine

/-! Sparse memory. Addresses are bus addresses, 0 to 255 (R63). -/

/-- The canonical form: addresses strictly rising and inside the bus address space. -/
abbrev Memory.wf (m : Memory) : Prop :=
  m.Pairwise (fun x y => x.1 < y.1) ∧ ∀ c ∈ m, c.1 < 256

/-- The byte at an address, none where no value is known. -/
def Memory.read (m : Memory) (a : Nat) : Option Byte :=
  match m with
  | [] => none
  | c :: rest => if c.1 = a then some c.2 else Memory.read rest a

/-- Store one byte, keeping the addresses in order. -/
def Memory.write (m : Memory) (a : Nat) (v : Byte) : Memory :=
  match m with
  | [] => [(a, v)]
  | c :: rest =>
    if a < c.1 then (a, v) :: c :: rest
    else if a = c.1 then (a, v) :: rest
    else c :: Memory.write rest a v

/-- Forget the byte at an address. -/
def Memory.erase (m : Memory) (a : Nat) : Memory :=
  match m with
  | [] => []
  | c :: rest => if c.1 = a then Memory.erase rest a else c :: Memory.erase rest a

/-- Store a byte where one is known, forget the address otherwise. -/
def Memory.set (m : Memory) (a : Nat) (v : Option Byte) : Memory :=
  match v with
  | some b => m.write a b
  | none => m.erase a

/-! The host register file (R26) -/

/-- What `h_rdata` shows for register number `n`: the register zero-extended, 0 for the reserved numbers (R120). -/
def State.readReg (s : State) (n : BitVec 5) : Word :=
  match n.toNat with
  | 0 => s.cmd.setWidth 32
  | 1 => s.status.setWidth 32
  | 2 => s.addr.setWidth 32
  | 3 => s.cfg.setWidth 32
  | 4 => s.extref
  | 5 => s.maxwait.setWidth 32
  | 6 => s.pollus.setWidth 32
  | 7 => s.raw.setWidth 32
  | 8 => s.elapsed
  | 9 => s.stshadow.setWidth 32
  | 10 => s.fegain
  | 11 => s.calloPh
  | 12 => s.calloV
  | 13 => s.calhiPh
  | 14 => s.calhiV
  | 15 => s.slope
  | 16 => s.v7
  | 17 => s.thslope
  | 18 => s.volts
  | 19 => s.vinput
  | 20 => s.ph
  | 21 => s.phu
  | _ => 0

/-- A host write while idle to a register other than CMD and STATUS: an operand register keeps the low bits of the
word; a read-only or reserved number is a host protocol error (R123). -/
def State.writeReg (n : BitVec 5) (d : Word) (s : State) : State :=
  match n.toNat with
  | 2 => { s with addr := d.setWidth 8 }
  | 3 => { s with cfg := d.setWidth 8 }
  | 4 => { s with extref := d }
  | 5 => { s with maxwait := d.setWidth 16 }
  | 6 => { s with pollus := d.setWidth 16 }
  | 10 => { s with fegain := d }
  | 11 => { s with calloPh := d }
  | 12 => { s with calloV := d }
  | 13 => { s with calhiPh := d }
  | 14 => { s with calhiV := d }
  | 17 => { s with thslope := d }
  | 18 => { s with volts := d }
  | 19 => { s with vinput := d }
  | _ => s.hostError

/-! How an operation ends and starts -/

/-- The error kinds an operation can raise (R220 to R225). -/
inductive ErrorKind where
  | transport (step : ErrStep) | config | divZero | overflow
  deriving DecidableEq, Repr

/-- The OUTCOME code of an error (R220). -/
def ErrorKind.outcome : ErrorKind → OutcomeCode
  | .transport _ => .errTransport
  | .config => .errConfig
  | .divZero => .errDivZero
  | .overflow => .errOverflow

/-- `complete(o)`: the operation ends (R8, R233). -/
def complete (o : OutcomeCode) (s : State) : State :=
  { s with outcome := o, done := true, st := .idle }

/-- What ERRSTEP becomes: the step of a transport error; any other error leaves it (R233). -/
def ErrorKind.errstep (e : ErrorKind) (old : ErrStep) : ErrStep :=
  match e with
  | .transport k => k
  | .config | .divZero | .overflow => old

/-- `raise E`, the block's trap entry: the operation in flight ends with the error's OUTCOME and, for a transport
error, its step; DONE is set and `st` goes to IDLE. Nothing is saved, no mode changes, there is no vector (R233,
R175). The way back is the next accepted operation (`accept`, R235). -/
def raise (e : ErrorKind) (s : State) : State :=
  { s with outcome := e.outcome, errstep := e.errstep s.errstep, done := true, st := .idle }

/-- The accepting edge clears what the last operation left in STATUS and stores the op code (R126, R235). -/
def acceptClear (op : HostOp) (s : State) : State :=
  { s with cmd := op.code, done := false, outcome := .none, errstep := .none }

/-- R127: the first state of each operation. -/
def firstState : HostOp → St
  | .select => .tSel
  | .devReset | .capture => .tRst
  | .wrcfg => .tCfg
  | .start => .tStart
  | .waitrdy => .tPoll
  | .rdraw => .tRead
  | .code2v | .v2in | .dcal | .v2ph | .v2phu => .scExec

/-- The operation is accepted and goes to its first state (R126, R127). -/
def accept (op : HostOp) (s : State) : State := { acceptClear op s with st := firstState op }

/-- WRCFG and CAPTURE: the configuration check is made first; a failed check accepts and ends the operation at the same
edge, with no transaction (R126, R165). -/
def acceptChecked (op : HostOp) (s : State) : State :=
  if cfgOk s.cfg s.extref then accept op s else raise .config (acceptClear op s)

/-! The request port -/

/-- The request the block drives, none when `t_req = 0` (R23, R65). -/
def State.request (s : State) : Option TReq :=
  match s.st with
  | .tSel => some ⟨.select, s.addr, 0⟩
  | .tRst => some ⟨.writeCmd, cmdReset, 0⟩
  | .tCfg => some ⟨.writeCmdData, cmdWconfig, cfgSent s.cfg⟩
  | .tStart => some ⟨.writeCmd, cmdStart, 0⟩
  | .tPoll => some ⟨.readByte, cmdRstatus, 0⟩
  | .tRead => some ⟨.readWord, cmdRdata, 0⟩
  | .idle | .wDelay | .scExec => none

/-- The output `t_req` (R23). -/
def State.tReqOut (s : State) : Bool := s.request.isSome

/-- The output `t_op` (R23, R102). -/
def State.tOpOut (s : State) : BitVec 3 :=
  match s.request with
  | some r => r.op.code
  | none => 0

/-- The output `t_a` (R23). -/
def State.tAOut (s : State) : Byte :=
  match s.request with
  | some r => r.a
  | none => 0

/-- The output `t_b` (R23). -/
def State.tBOut (s : State) : Byte :=
  match s.request with
  | some r => r.b
  | none => 0

/-! What a transaction does behind the transport port. The block never sees it except through the answers (R11); it is
held because the spec gives the effect of Start and of a configuration write (R141, R145) and of SELECT (R146). -/

/-- What a device's configuration register holds before it is first written: the spec gives no value.
[DESIGN CHOICE, log 5] -/
def devCfgReset : Byte := 0x00

/-- A configuration register is written: one that holds `devCfgReset` is not listed. -/
def Memory.keep (m : Memory) (a : Nat) (b : Byte) : Memory := m.set a (if b = devCfgReset then none else some b)

/-- Whether the spec leaves the configuration register at a bus address open (U2, U5). -/
def State.configOpen (s : State) (a : Nat) : Bool := (s.devOpen.read a).isSome

/-- The configuration register of the device at a bus address (R74). -/
def State.deviceConfig (s : State) (a : Nat) : Byte :=
  match s.devOpen.read a with
  | some f => f
  | none => (s.devCfg.read a).getD devCfgReset

/-- The bus address a transaction goes to: the selected one; any address while none is selected (R260, U3). -/
def State.target (s : State) : Byte :=
  match s.selected with
  | some a => a
  | none => Config.freeTarget s.edge

/-- The target's configuration register and conversion become free values (R70, U2, U5). [DESIGN CHOICE, log 7, log 8] -/
def forgetDevice (s : State) : State :=
  { s with
    devCfg := s.devCfg.erase s.target.toNat
    devOpen := s.devOpen.write s.target.toNat (Config.freeDevConfig s.edge)
    devRun := s.devRun.set s.target.toNat (Config.freeDevRun s.edge) }

/-- The target's configuration register takes `b` and keeps it until overwritten (R74, R145). -/
def configureDevice (b : Byte) (s : State) : State :=
  { s with devCfg := s.devCfg.keep s.target.toNat b, devOpen := s.devOpen.erase s.target.toNat }

/-- The byte `b` came back from the target's configuration register (R143). It settles a content the spec leaves open; a
content that is not open stays as it is, since only a write changes it (R74). [DESIGN CHOICE, log 9] -/
def learnConfig (b : Byte) (s : State) : State :=
  if s.configOpen s.target.toNat then configureDevice b s else s

/-- The target begins a conversion with its configuration register as it stands (R77, R141). -/
def startDevice (s : State) : State :=
  { s with devRun := s.devRun.write s.target.toNat (s.deviceConfig s.target.toNat) }

/-- A transaction ended without error: what the six device commands and SELECT do behind the port. A command byte with
another transport operation than R92 gives it, or a byte outside the six, leaves the device open (U10, log 8). -/
def transactionOk (r : TReq) (rdata : Half) (s : State) : State :=
  match r.op with
  | .select => { s with selected := some r.a }
  | .writeCmd => if r.a = cmdStart then startDevice s else forgetDevice s
  | .writeCmdData => if r.a = cmdWconfig then configureDevice r.b s else forgetDevice s
  | .readByte =>
    if r.a = cmdRstatus then s
    else if r.a = cmdRconfig then learnConfig (rdata.extractLsb' 0 8) s else forgetDevice s
  | .readWord => if r.a = cmdRdata then s else forgetDevice s

/-- A transaction ended with an error: after a failed SELECT no address is selected (R146, R260, U3); after any
other failure the device's state is open (R70, R234, U2). -/
def transactionFailed (r : TReq) (s : State) : State :=
  match r.op with
  | .select => { s with selected := none }
  | .writeCmd | .writeCmdData | .readByte | .readWord => forgetDevice s

/-- What the end of transaction `r` does behind the port. -/
def transactionEnd (r : TReq) (err : Bool) (rdata : Half) (s : State) : State :=
  if err then transactionFailed r s else transactionOk r rdata s

/-- The end of the block's own transaction behind the port; nothing when none is outstanding. -/
def served (p : Pins) (s : State) : State :=
  match s.request with
  | some r => transactionEnd r p.err p.rdata s
  | none => s

/-! Reset and the inputs -/

/-- Behind the port at an edge with `rst = 1`: a request of the block that is withdrawn (R253), or another master's
transaction in the cycle, leaves the target open; otherwise nothing happens there. [DESIGN CHOICE, log 10] -/
def withdrawn (w : PortWord) (s : State) : State :=
  if s.request.isSome || !w.isHost then forgetDevice s else s

/-- What the record of `h_rdata` holds after an edge with `rst = 1`: what the port showed in that cycle, the register of
before the edge, if it was a host port cycle; in a cycle with a transaction word the record stays (R22, R120).
[DESIGN CHOICE, log 6] -/
def shownAtReset (w : PortWord) (s : State) : Word :=
  match w.hostAddr with
  | some n => s.readReg n
  | none => s.hRdata

/-- An edge with `rst = 1`, the cycle's port word being `w`: every register of the block takes its reset value and
every other input of the edge is ignored (R20, R52, R250). No address is selected until a SELECT ends without error
(R260). The devices are not reset (R52): they stay as `withdrawn` leaves them, and the model's record of `h_rdata` as
`shownAtReset` says. -/
def resetEdge (w : PortWord) (s : State) : State :=
  { State.reset with
    devCfg := (withdrawn w s).devCfg
    devOpen := (withdrawn w s).devOpen
    devRun := (withdrawn w s).devRun
    pins := s.pins
    script := s.script
    edge := s.edge
    hRdata := shownAtReset w s }

/-- The cycle the outside world drives at edge `n` where none is scripted: any host word, any pins (log 2). -/
def freeCycle (n : Nat) : Cycle where
  word := .host (Config.freeHostWord n)
  pins :=
    { rst := Config.freeRst n
      tick := Config.freeTick n
      ack := Config.freeAck n
      err := Config.freeErr n
      rdata := Config.freeRdata n }

/-- The cycle that ends with the next edge: the head of the script, a free one when the script is empty. -/
def State.nextCycle (s : State) : Cycle :=
  match s.script with
  | c :: _ => c
  | [] => freeCycle s.edge

/-- The state at the edge: the next cycle's pins are on the input pins and the cycle is used up. -/
def State.sampled (s : State) : State :=
  { s with pins := s.nextCycle.pins, script := s.script.tail, edge := s.edge + 1 }

/-- The pins under which a presented word runs: no reset and no tick; a transaction word is acknowledged without error
at once, a host word comes with no acknowledge. [DESIGN CHOICE, log 13] -/
def presentPins : PortWord → Pins
  | .host _ => Pins.quiet
  | .devCmd _ | .devCmdData _ | .treq _ => { Pins.quiet with ack := true }

/-- `s` with the word presented in the very next cycle. -/
def State.present (w : PortWord) (s : State) : State :=
  { s with script := { word := w, pins := presentPins w } :: s.script }

end Sys2Proof.Machine
end

