-- ==== Sys2Proof/Machine/SignalConverter.lean ====
section
/-! DEFINITION. What each operation of unit SC does at its completing edge, the edge after the one it was accepted at
(spec/43_signal_converter.md R200 to R211). The order of the tests is that of R231; a failing operation writes no result
register (R197). -/

namespace Sys2Proof.Machine

/-- CODE2V (R201): RAW to VOLTS. -/
def completeCode2v (s : State) : State :=
  if cfgOk s.cfg s.extref then
    complete .ok
      { s with
        volts := fxPattern (codeToVoltage s.raw.toInt (refVoltage s.cfg s.extref) (gainDivisor s.cfg)) }
  else raise .config s

/-- V2IN (R203): VOLTS to VINPUT. -/
def completeV2in (s : State) : State :=
  if s.fegain = 0 then raise .divZero s
  else
    let r := vToInput s.volts.toInt s.fegain.toInt
    if inRange r then complete .ok { s with vinput := fxPattern r } else raise .overflow s

/-- DCAL (R205): the two calibration points to SLOPE and V7; any failure clears CALV. -/
def completeDcal (s : State) : State :=
  if s.calhiPh = s.calloPh then raise .config { s with calv := false }
  else
    let slope := calSlope s.calloPh.toInt s.calloV.toInt s.calhiPh.toInt s.calhiV.toInt
    if inRange slope then
      let z := calV7 s.calloPh.toInt s.calloV.toInt slope
      if inRange z then
        complete .ok { s with slope := fxPattern slope, v7 := fxPattern z, calv := true }
      else raise .overflow { s with calv := false }
    else raise .overflow { s with calv := false }

/-- V2PH (R209): VINPUT to PH with the derived calibration. -/
def completeV2ph (s : State) : State :=
  if s.calv = false then raise .config s
  else if s.slope = 0 then raise .divZero s
  else
    let p := vToPh s.vinput.toInt s.slope.toInt s.v7.toInt
    if inRange p then complete .ok { s with ph := fxPattern p } else raise .overflow s

/-- V2PHU (R211): VINPUT to PHU with the theoretical slope. -/
def completeV2phu (s : State) : State :=
  if s.thslope = 0 then raise .divZero s
  else
    let p := vToPhUncal s.vinput.toInt s.thslope.toInt
    if inRange p then complete .ok { s with phu := fxPattern p } else raise .overflow s

/-- The edge in SC_EXEC: the operation CMD names is computed (R200). With a CMD that names no SC operation, which no run
reaches, nothing is assigned and the state holds (R176). [DEDUCED, log 11] -/
def scExec (s : State) : State :=
  match HostOp.ofCode s.cmd with
  | some .code2v => completeCode2v s
  | some .v2in => completeV2in s
  | some .dcal => completeDcal s
  | some .v2ph => completeV2ph s
  | some .v2phu => completeV2phu s
  | some .select | some .devReset | some .wrcfg | some .start | some .waitrdy | some .rdraw
  | some .capture | none => s

end Sys2Proof.Machine
end

