-- ==== Sys2Proof/Machine/Sequencer.lean ====
section
/-! DEFINITION. The sequencer, edge by edge (spec/42_converter_protocol.md R176 to R180), and the two kinds of edge the
meanings use: one with a host port action and one with a transaction word (spec/40_host_port.md R128,
spec/60_exceptions.md R230). -/

namespace Sys2Proof.Machine

/-- `cap`: the operation in flight is CAPTURE (R176). -/
def State.cap (s : State) : Bool := decide (s.cmd = HostOp.capture.code)

/-- The step after an error-free transaction: on to the next state under CAPTURE, complete otherwise (R176, R177). -/
def goOn (next : State → State) (s : State) : State := if s.cap then next s else complete .ok s

/-- Pre-edge T_SEL (R177). -/
def edgeTSel (p : Pins) (s : State) : State :=
  if p.ack then
    if p.err then raise (.transport .select) (served p s) else complete .ok (served p s)
  else s

/-- Pre-edge T_RST (R177). -/
def edgeTRst (p : Pins) (s : State) : State :=
  if p.ack then
    if p.err then raise (.transport .reset) (served p s)
    else goOn (fun s => { s with st := .tCfg }) (served p s)
  else s

/-- Pre-edge T_CFG (R177). -/
def edgeTCfg (p : Pins) (s : State) : State :=
  if p.ack then
    if p.err then raise (.transport .wrcfg) (served p s)
    else goOn (fun s => { s with st := .tStart }) (served p s)
  else s

/-- Pre-edge T_START (R177): polling begins with ELAPSED cleared. -/
def edgeTStart (p : Pins) (s : State) : State :=
  if p.ack then
    if p.err then raise (.transport .start) (served p s)
    else goOn (fun s => { s with elapsed := 0, st := .tPoll }) (served p s)
  else s

/-- The tick of a polling edge: ELAPSED counts it (R171, R178). -/
def countTick (p : Pins) (s : State) : State :=
  if p.tick then { s with elapsed := tickElapsed s.elapsed } else s

/-- A status byte that is not ready: the deadline is tested on the ELAPSED of before the edge, `e`; a timeout under
CAPTURE writes the sentinel; otherwise the delay begins, or the next read when POLLUS is 0 (R170, R172, R173, R178). -/
def notReady (e : Word) (s : State) : State :=
  if deadlinePassed e s.maxwait then
    complete .timeout (if s.cap then { s with raw := 0xFFFF } else s)
  else if s.pollus = 0 then s
  else { s with dl := s.pollus, st := .wDelay }

/-- A status read that ended without error: ready wins over the deadline (R169, R178). -/
def statusRead (b : Byte) (e : Word) (s : State) : State :=
  let s := { s with stshadow := b }
  if statusReady b then goOn (fun s => { s with st := .tRead }) s else notReady e s

/-- Pre-edge T_POLL (R178). -/
def edgeTPoll (p : Pins) (s : State) : State :=
  let s' := countTick p s
  if p.ack then
    if p.err then raise (.transport .poll) (served p s')
    else statusRead (p.rdata.extractLsb' 0 8) s.elapsed (served p s')
  else s'

/-- Pre-edge W_DELAY (R179). -/
def edgeWDelay (p : Pins) (s : State) : State :=
  if p.tick then
    let s' := countTick p s
    if s.dl.toNat ≤ 1 then { s' with dl := 0, st := .tPoll } else { s' with dl := s.dl - 1 }
  else s

/-- Pre-edge T_READ (R180). -/
def edgeTRead (p : Pins) (s : State) : State :=
  if p.ack then
    if p.err then raise (.transport .read) (served p s)
    else complete .ok { served p s with raw := bswap16 p.rdata }
  else s

/-- One edge of the sequencer under the pins `p`, without a host action (R176). In IDLE nothing happens. -/
def sequencer (p : Pins) (s : State) : State :=
  match s.st with
  | .idle => s
  | .tSel => edgeTSel p s
  | .tRst => edgeTRst p s
  | .tCfg => edgeTCfg p s
  | .tStart => edgeTStart p s
  | .tPoll => edgeTPoll p s
  | .wDelay => edgeWDelay p s
  | .tRead => edgeTRead p s
  | .scExec => scExec s

/-- What `h_rdata` shows in the cycle that ends with this edge, register `n` before the edge (R120). [log 6] -/
def latchRead (n : BitVec 5) (before s : State) : State := { s with hRdata := before.readReg n }

/-- An edge with a host write to a register other than STATUS: while busy the write is lost and HOSTERR is set, beside
the sequencer's step; while idle the write acts (R121, R124, R128). -/
def writeEdge (n : BitVec 5) (act : State → State) (s : State) : State :=
  latchRead n s (if s.busy then (sequencer s.pins s).hostError else act s)

/-- The edge of a CMD write that issues an operation (R121, R124, R126). -/
def issueEdge (act : State → State) (s : State) : State := writeEdge 0 act s

/-- The pins as the block sees them when the transport is answering another master: no acknowledge. -/
def withoutAck (p : Pins) : Pins := { p with ack := false }

/-- An edge with transaction `r` on the transport port and no host write. The block's own request: the sequencer's step
with the pins as they are. Otherwise another master's: when it is acknowledged its effect behind the port happens, and
the block sees no acknowledge (R24, R78). [DESIGN CHOICE, log 3 and log 4] -/
def transactEdge (r : TReq) (s : State) : State :=
  if s.request = some r then sequencer s.pins s
  else
    let s' := sequencer (withoutAck s.pins) s
    if s.pins.ack then transactionEnd r s.pins.err s.pins.rdata s' else s'

end Sys2Proof.Machine
end

