-- ==== Sys2Proof/Machine/Conversion.lean ====
section
/-! DEFINITION. The meanings of the operations of unit SC: the edge a host write to CMD issues one of them (spec/40_host_port.md R126, R127; spec/43_signal_converter.md R200). The next edge computes it (`scExec`). -/

namespace Sys2Proof.Machine

/-- CODE2V (R201). -/
def execCode2v (_ignored : BitVec 28) (s : State) : Host.Outcome State Fault Refusal :=
  .next (issueEdge (accept .code2v) s)

/-- V2IN (R203). -/
def execV2in (_ignored : BitVec 28) (s : State) : Host.Outcome State Fault Refusal :=
  .next (issueEdge (accept .v2in) s)

/-- DCAL (R205). -/
def execDcal (_ignored : BitVec 28) (s : State) : Host.Outcome State Fault Refusal :=
  .next (issueEdge (accept .dcal) s)

/-- V2PH (R209). -/
def execV2ph (_ignored : BitVec 28) (s : State) : Host.Outcome State Fault Refusal :=
  .next (issueEdge (accept .v2ph) s)

/-- V2PHU (R211). -/
def execV2phu (_ignored : BitVec 28) (s : State) : Host.Outcome State Fault Refusal :=
  .next (issueEdge (accept .v2phu) s)

end Sys2Proof.Machine
end

