-- ==== Sys2Proof/Machine/ConverterProtocol.lean ====
section
/-! DEFINITION. The meanings of the operations of unit CP: the edge a host write to CMD issues one of them (spec/40_host_port.md R126, R127; spec/42_converter_protocol.md R160 to R167). The transactions that follow are the sequencer's. -/

namespace Sys2Proof.Machine

/-- SELECT (R160). -/
def execSelect (_ignored : BitVec 28) (s : State) : Host.Outcome State Fault Refusal :=
  .next (issueEdge (accept .select) s)

/-- DEVRESET (R161). -/
def execDevReset (_ignored : BitVec 28) (s : State) : Host.Outcome State Fault Refusal :=
  .next (issueEdge (accept .devReset) s)

/-- WRCFG (R162): the configuration check comes first (R165). -/
def execWrcfg (_ignored : BitVec 28) (s : State) : Host.Outcome State Fault Refusal :=
  .next (issueEdge (acceptChecked .wrcfg) s)

/-- START (R163). -/
def execStart (_ignored : BitVec 28) (s : State) : Host.Outcome State Fault Refusal :=
  .next (issueEdge (accept .start) s)

/-- WAITRDY (R164): ELAPSED is cleared at the accepting edge. -/
def execWaitrdy (_ignored : BitVec 28) (s : State) : Host.Outcome State Fault Refusal :=
  .next (issueEdge (fun s => { accept .waitrdy s with elapsed := 0 }) s)

/-- RDRAW (R166). -/
def execRdraw (_ignored : BitVec 28) (s : State) : Host.Outcome State Fault Refusal :=
  .next (issueEdge (accept .rdraw) s)

/-- CAPTURE (R167): the configuration check comes first (R165). -/
def execCapture (_ignored : BitVec 28) (s : State) : Host.Outcome State Fault Refusal :=
  .next (issueEdge (acceptChecked .capture) s)

end Sys2Proof.Machine
end

