-- ==== Sys2Proof/Machine/Device.lean ====
section
/-! DEFINITION. The meanings of the six device commands as transactions on the transport port
(spec/41_transport_device_commands.md R140 to R145): the block's side when the block drives them, and the device's side. -/

namespace Sys2Proof.Machine

/-- DEV_RESET, 0x06 by WRITE_CMD (R140). -/
def execDvReset (s : State) : Host.Outcome State Fault Refusal :=
  .next (transactEdge ⟨.writeCmd, cmdReset, 0⟩ s)

/-- DEV_START_SYNC, 0x08 by WRITE_CMD (R141). -/
def execDvStartSync (s : State) : Host.Outcome State Fault Refusal :=
  .next (transactEdge ⟨.writeCmd, cmdStart, 0⟩ s)

/-- DEV_READ_DATA, 0x10 by READ_WORD (R142). -/
def execDvReadData (s : State) : Host.Outcome State Fault Refusal :=
  .next (transactEdge ⟨.readWord, cmdRdata, 0⟩ s)

/-- DEV_READ_CONFIG, 0x20 by READ_BYTE (R143): the block never sends it. -/
def execDvReadConfig (s : State) : Host.Outcome State Fault Refusal :=
  .next (transactEdge ⟨.readByte, cmdRconfig, 0⟩ s)

/-- DEV_READ_STATUS, 0x24 by READ_BYTE (R144). -/
def execDvReadStatus (s : State) : Host.Outcome State Fault Refusal :=
  .next (transactEdge ⟨.readByte, cmdRstatus, 0⟩ s)

/-- DEV_WRITE_CONFIG, 0x40 and the configuration byte by WRITE_CMD_DATA (R145, R96). -/
def execDvWriteConfig (mux : BitVec 3) (gain : BitVec 1) (s : State) : Host.Outcome State Fault Refusal :=
  .next (transactEdge ⟨.writeCmdData, cmdWconfig, configByte mux gain⟩ s)

end Sys2Proof.Machine
end

