-- ==== Sys2Proof/Machine/HostPort.lean ====
section
/-! DEFINITION. The meanings of the host accesses RD and WR (spec/40_host_port.md R120 to R128). -/

namespace Sys2Proof.Machine

/-- RD (R120): `h_rdata` shows register `n`; the sequencer goes on. The written word is ignored. -/
def execRd (n : BitVec 5) (_ignored : Word) (s : State) : Host.Outcome State Fault Refusal :=
  .next (latchRead n s (sequencer s.pins s))

/-- A write to CMD while idle: a defined op code issues its operation, a reserved one is a host protocol error
(R105, R126). WAITRDY clears ELAPSED. -/
def writeCmdReg (d : Word) (s : State) : State :=
  match HostOp.ofCode (d.extractLsb' 0 4) with
  | some .wrcfg => acceptChecked .wrcfg s
  | some .capture => acceptChecked .capture s
  | some .waitrdy => { accept .waitrdy s with elapsed := 0 }
  | some op => accept op s
  | none => s.hostError

/-- WR (R121): STATUS, then busy, then CMD, then the other registers. -/
def execWr (n : BitVec 5) (d : Word) (s : State) : Host.Outcome State Fault Refusal :=
  if n = 1#5 then .next (latchRead n s ((sequencer s.pins s).writeStatus d))
  else if n = 0#5 then .next (writeEdge n (writeCmdReg d) s)
  else .next (writeEdge n (State.writeReg n d) s)

end Sys2Proof.Machine
end

