-- ==== Sys2Proof/Machine/Transport.lean ====
section
/-! DEFINITION. The meanings of the five transport operations (spec/41_transport_device_commands.md R146 to R151): one
request on the transport port, held while `t_ack = 0` and ended where `t_ack = 1` (spec/20_memory.md R65). -/

namespace Sys2Proof.Machine

/-- T_SELECT (R146). -/
def execTSelect (a b : Byte) (s : State) : Host.Outcome State Fault Refusal :=
  .next (transactEdge ⟨.select, a, b⟩ s)

/-- T_WRITE_CMD (R147). -/
def execTWriteCmd (a b : Byte) (s : State) : Host.Outcome State Fault Refusal :=
  .next (transactEdge ⟨.writeCmd, a, b⟩ s)

/-- T_WRITE_CMD_DATA (R148). -/
def execTWriteCmdData (a b : Byte) (s : State) : Host.Outcome State Fault Refusal :=
  .next (transactEdge ⟨.writeCmdData, a, b⟩ s)

/-- T_READ_BYTE (R149). -/
def execTReadByte (a b : Byte) (s : State) : Host.Outcome State Fault Refusal :=
  .next (transactEdge ⟨.readByte, a, b⟩ s)

/-- T_READ_WORD (R150). -/
def execTReadWord (a b : Byte) (s : State) : Host.Outcome State Fault Refusal :=
  .next (transactEdge ⟨.readWord, a, b⟩ s)

end Sys2Proof.Machine
end

