-- ==== Sys2Proof/Machine/Dispatch.lean ====
section
/-! DEFINITION. One arm per instruction. -/

namespace Sys2Proof.Machine

def exec (i : Instr) (s : State) : Host.Outcome State Fault Refusal :=
  match i with
  | .rd n x => Sys2Proof.Machine.execRd n x s
  | .wr n d => Sys2Proof.Machine.execWr n d s
  | .select x => Sys2Proof.Machine.execSelect x s
  | .devReset x => Sys2Proof.Machine.execDevReset x s
  | .wrcfg x => Sys2Proof.Machine.execWrcfg x s
  | .start x => Sys2Proof.Machine.execStart x s
  | .waitrdy x => Sys2Proof.Machine.execWaitrdy x s
  | .rdraw x => Sys2Proof.Machine.execRdraw x s
  | .capture x => Sys2Proof.Machine.execCapture x s
  | .code2v x => Sys2Proof.Machine.execCode2v x s
  | .v2in x => Sys2Proof.Machine.execV2in x s
  | .dcal x => Sys2Proof.Machine.execDcal x s
  | .v2ph x => Sys2Proof.Machine.execV2ph x s
  | .v2phu x => Sys2Proof.Machine.execV2phu x s
  | .dvReset => Sys2Proof.Machine.execDvReset s
  | .dvStartSync => Sys2Proof.Machine.execDvStartSync s
  | .dvReadData => Sys2Proof.Machine.execDvReadData s
  | .dvReadConfig => Sys2Proof.Machine.execDvReadConfig s
  | .dvReadStatus => Sys2Proof.Machine.execDvReadStatus s
  | .dvWriteConfig mux gain => Sys2Proof.Machine.execDvWriteConfig mux gain s
  | .tSelect a b => Sys2Proof.Machine.execTSelect a b s
  | .tWriteCmd a b => Sys2Proof.Machine.execTWriteCmd a b s
  | .tWriteCmdData a b => Sys2Proof.Machine.execTWriteCmdData a b s
  | .tReadByte a b => Sys2Proof.Machine.execTReadByte a b s
  | .tReadWord a b => Sys2Proof.Machine.execTReadWord a b s

end Sys2Proof.Machine
end

