-- ==== Sys2Proof/Machine/Step.lean ====
section
/-! DEFINITION. One step: one rising clock edge (spec/00_scope.md R12). The next cycle's pins are sampled; `rst` wins over
everything (R230, R250); otherwise the cycle's port word is decoded and runs. -/

namespace Sys2Proof.Machine

/-- One edge. -/
def step (s : State) : Host.Outcome State Fault Refusal :=
  if s.nextCycle.pins.rst then .next (resetEdge s.nextCycle.word s.sampled)
  else
    match decode s.nextCycle.word with
    | .ok i => exec i s.sampled
    | .error _ => .refused .reservedWord

/-- `s` with the word `w` of a table row of `nbits` bits presented in the very next cycle; a number that is no word of a
format changes nothing. -/
def State.withFetchWord (s : State) (nbits w : Nat) : State :=
  match PortWord.ofTable nbits w with
  | some p => s.present p
  | none => s

end Sys2Proof.Machine
end

