-- ==== Sys2Proof/Safety.lean ====
section
/-! DEFINITION. What counts as a sound state of RPADC, in the terms the statements use: which operation can be in which
FSM state, which operation can end how, the invariant every step keeps, and the order CAPTURE keeps at the device. -/

namespace Sys2Proof.Machine

/-- Whether an operation in flight can be in an FSM state (R181). -/
def mayBeIn : HostOp → St → Bool
  | _, .idle => true
  | .select, .tSel => true
  | .devReset, .tRst => true
  | .wrcfg, .tCfg => true
  | .start, .tStart => true
  | .waitrdy, .tPoll => true
  | .waitrdy, .wDelay => true
  | .rdraw, .tRead => true
  | .capture, .tRst => true
  | .capture, .tCfg => true
  | .capture, .tStart => true
  | .capture, .tPoll => true
  | .capture, .wDelay => true
  | .capture, .tRead => true
  | .code2v, .scExec => true
  | .v2in, .scExec => true
  | .dcal, .scExec => true
  | .v2ph, .scExec => true
  | .v2phu, .scExec => true
  | _, _ => false

/-- R227: whether an operation can end with an outcome and a failing step. -/
def canEnd : HostOp → OutcomeCode → ErrStep → Bool
  | _, .ok, .none => true
  | .waitrdy, .timeout, .none => true
  | .capture, .timeout, .none => true
  | .select, .errTransport, .select => true
  | .devReset, .errTransport, .reset => true
  | .wrcfg, .errTransport, .wrcfg => true
  | .start, .errTransport, .start => true
  | .waitrdy, .errTransport, .poll => true
  | .rdraw, .errTransport, .read => true
  | .capture, .errTransport, .reset => true
  | .capture, .errTransport, .wrcfg => true
  | .capture, .errTransport, .start => true
  | .capture, .errTransport, .poll => true
  | .capture, .errTransport, .read => true
  | .wrcfg, .errConfig, .none => true
  | .capture, .errConfig, .none => true
  | .code2v, .errConfig, .none => true
  | .dcal, .errConfig, .none => true
  | .v2ph, .errConfig, .none => true
  | .v2in, .errDivZero, .none => true
  | .v2ph, .errDivZero, .none => true
  | .v2phu, .errDivZero, .none => true
  | .v2in, .errOverflow, .none => true
  | .dcal, .errOverflow, .none => true
  | .v2ph, .errOverflow, .none => true
  | .v2phu, .errOverflow, .none => true
  | _, _, _ => false

/-- R181: the arrows of the FSM graph, staying in a state included. -/
def follows : St → St → Bool
  | .idle, t => t == .idle || t == .tSel || t == .tRst || t == .tCfg || t == .tStart || t == .tPoll ||
      t == .tRead || t == .scExec
  | .tSel, t => t == .tSel || t == .idle
  | .tRst, t => t == .tRst || t == .tCfg || t == .idle
  | .tCfg, t => t == .tCfg || t == .tStart || t == .idle
  | .tStart, t => t == .tStart || t == .tPoll || t == .idle
  | .tPoll, t => t == .tPoll || t == .tRead || t == .wDelay || t == .idle
  | .wDelay, t => t == .wDelay || t == .tPoll
  | .tRead, t => t == .tRead || t == .idle
  | .scExec, t => t == .idle

/-- The operation CMD names, none before the first is accepted (R27). -/
def State.currentOp (s : State) : Option HostOp := HostOp.ofCode s.cmd

/-- What holds of the block at reset and after every step. -/
structure Consistent (s : State) : Prop where
  /-- `st` is a state of the operation in CMD (R181); before the first operation it is IDLE. -/
  inFlight : s.st = .idle ∨ ∃ op, s.currentOp = some op ∧ mayBeIn op s.st = true
  /-- While an operation is in flight DONE, OUTCOME and ERRSTEP are clear (R30, R31, R32). -/
  clearWhileBusy : s.st ≠ .idle → s.done = false ∧ s.outcome = .none ∧ s.errstep = .none
  /-- DONE = 0 goes with OUTCOME NONE and ERRSTEP 0 (R103). -/
  noOutcome : s.done = false → s.outcome = .none ∧ s.errstep = .none
  /-- DONE = 1: the operation in CMD ended as R227 allows. -/
  ended : s.done = true → ∃ op, s.currentOp = some op ∧ canEnd op s.outcome s.errstep = true
  /-- Idle with DONE = 0: no operation was accepted since reset (R27, R103). -/
  fresh : s.st = .idle → s.done = false → s.cmd = 0
  /-- `dl` is between 1 and POLLUS in W_DELAY and 0 elsewhere (R50, R179). -/
  delay : if s.st = .wDelay then 1 ≤ s.dl.toNat ∧ s.dl.toNat ≤ s.pollus.toNat else s.dl = 0
  /-- A WRCFG or CAPTURE in flight has a valid configuration (R165). -/
  checked : s.st ≠ .idle → (s.currentOp = some .wrcfg ∨ s.currentOp = some .capture) →
    cfgOk s.cfg s.extref = true
  /-- A CAPTURE that ended in a timeout left the sentinel in RAW (R172, R264). -/
  sentinel : s.currentOp = some .capture → s.outcome = .timeout → s.raw = 0xFFFF

/-- The three sparse memories are in canonical form: addresses rising, no configuration register listed that holds what
an unlisted one holds, and none listed that is open. -/
structure MemoryForm (s : State) : Prop where
  cfg : Memory.wf s.devCfg
  written : ∀ c ∈ s.devCfg, c.2 ≠ devCfgReset
  opened : Memory.wf s.devOpen
  apart : ∀ a, s.configOpen a = true → s.devCfg.read a = none
  run : Memory.wf s.devRun

/-- The order CAPTURE keeps at the selected device (R167, R259): from its Start on, the device's configuration register
holds the byte sent; from its polling on, the device's conversion was begun with that byte. -/
def CaptureOrder (s : State) : Prop :=
  s.currentOp = some .capture → ∀ a, s.selected = some a →
    ((s.st = .tStart ∨ s.st = .tPoll ∨ s.st = .wDelay ∨ s.st = .tRead) →
      s.deviceConfig a.toNat = cfgSent s.cfg ∧ s.configOpen a.toNat = false) ∧
    ((s.st = .tPoll ∨ s.st = .wDelay ∨ s.st = .tRead) →
      s.devRun.read a.toNat = some (cfgSent s.cfg))

/-- The next cycle is a host port cycle: no other master is on the transport port (R261). -/
def NoOtherMaster (s : State) : Prop := s.nextCycle.word.isHost = true

/-- Edges in which the host does not write and no other master is on the transport port: an RD of register 0 each, under
the pins given. -/
def idleEdges : List Pins → State → Host.Outcome State Fault Refusal
  | [], s => .next s
  | p :: ps, s =>
    match exec (.rd 0 0) { s with pins := p } with
    | .next t => idleEdges ps t
    | .fault r => .fault r
    | .refused r => .refused r

/-- The configuration register at a bus address is in `t` as in `s`. -/
def ConfigSame (s t : State) (b : Nat) : Prop :=
  t.deviceConfig b = s.deviceConfig b ∧ t.configOpen b = s.configOpen b

/-- In `t` the configuration register and the conversion of the target of `s` are open, every other device as in `s`. -/
def DeviceForgotten (s t : State) : Prop := ∀ b : Nat,
  (b = s.target.toNat → t.configOpen b = true) ∧
  (b ≠ s.target.toNat → ConfigSame s t b ∧ t.devRun.read b = s.devRun.read b)

/-- In `t` the configuration register of the target of `s` holds `v` and is not open; everything else as in `s`. -/
def DeviceConfigured (v : Byte) (s t : State) : Prop := ∀ b : Nat,
  (b = s.target.toNat → t.deviceConfig b = v ∧ t.configOpen b = false) ∧
  (b ≠ s.target.toNat → ConfigSame s t b) ∧
  t.devRun.read b = s.devRun.read b

/-- In `t` the target of `s` has begun a conversion with its configuration register as it stands in `s`; everything else
as in `s`. -/
def DeviceStarted (s t : State) : Prop := ∀ b : Nat,
  ConfigSame s t b ∧
  t.devRun.read b = if b = s.target.toNat then some (s.deviceConfig b) else s.devRun.read b

/-- In `t` every device is as in `s`. -/
def DeviceSame (s t : State) : Prop := ∀ b : Nat,
  ConfigSame s t b ∧ t.devRun.read b = s.devRun.read b

/-- From `s` to `t` the block takes its edge as without an acknowledge and without a host write; what is behind the port
may change, and the model's record of `h_rdata` stays. -/
def WaitsBeside (s t : State) : Prop :=
  ∃ u, exec (.rd 0 0) { s with pins := { s.pins with ack := false } } = .next u ∧
    t = { u with
      pins := s.pins, hRdata := s.hRdata,
      selected := t.selected, devCfg := t.devCfg, devOpen := t.devOpen, devRun := t.devRun }

end Sys2Proof.Machine
end

