-- ==== Sys2Proof/Certificates/Slice0/Obligations.lean ====
section
/-! DEFINITION. The statements about RPADC for the provers. Each docstring names the rules it formalises; a clause that
rests on a choice of the model names the log entry. `exec (.rd n g)` is the edge without a host write and without
another master on the transport port; the input pins of the edge are `s.pins`. -/

open Sys2Proof Sys2Proof.Machine

/-! ## Encoding -/

/-- R101, R102, R106, R108: decoding the word of a well-formed instruction gives it back, every operand included. -/
def Obligations.DecodeEncode : Prop := ∀ i : Instr, i.wf = true → decode (encode i) = .ok i

/-- R108: a word that decodes is the word of its instruction, which is well formed: no two words share a meaning. -/
def Obligations.EncodeDecode : Prop := ∀ (w : PortWord) (i : Instr), decode w = .ok i → i.wf = true ∧ encode i = w

/-- Words written out from R91, R93, R101, R102, R106 and R108. -/
def Obligations.WordsDecode : Prop :=
  decode (.host 0b00010100000000000000000000000000000000#38) = .ok (.rd 5 0) ∧
  decode (.host 0b10001100000000000000000000000001111110#38) = .ok (.wr 3 0x7E) ∧
  decode (.host 0b10000000000000000000000000000000000001#38) = .ok (.select 0) ∧
  decode (.host 0b10000011111111111111111111111111111000#38) = .ok (.code2v 0xFFFFFFF) ∧
  decode (.host 0b10000000000000000000000000000000001101#38) = .ok (.wr 0 13) ∧
  decode (.devCmd 0b00100100#8) = .ok .dvReadStatus ∧
  decode (.devCmdData 0b0100000001110000#16) = .ok (.dvWriteConfig 3 1) ∧
  decode (.treq 0b1000001000000000000#19) = .ok (.tReadWord 0x10 0)

/-- That a word outside the opcode table is refused by name is the model's choice (log 12): the spec says of such a word
only that it is never driven or cannot arise (R97, R102). The words refused are exactly those of no row (masks of
spec/opcode_table.json, R145), and every host word is an instruction (R105). -/
def Obligations.ReservedWordsRefused : Prop :=
  (∀ w : BitVec 19, decode (.treq w) = .error .transportOp ↔ 5 ≤ (w >>> 16).toNat) ∧
  (∀ w : BitVec 8, decode (.devCmd w) = .error .deviceCommand ↔
    w ≠ 0x06 ∧ w ≠ 0x08 ∧ w ≠ 0x10 ∧ w ≠ 0x20 ∧ w ≠ 0x24) ∧
  (∀ w : BitVec 16, decode (.devCmdData w) = .error .deviceConfig ↔ w &&& 0xFF0F#16 ≠ 0x4000#16) ∧
  (∀ w : BitVec 38, ∃ i, decode (.host w) = .ok i)

/-! ## The step -/

/-- R12, R121, R230: with `rst = 0` one step is `exec` of the instruction the next cycle's word decodes to, on the state
with that cycle's pins sampled; a word that is no row of the table is refused by name (log 12). -/
def Obligations.StepRunsDecoded : Prop := ∀ s : State, s.nextCycle.pins.rst = false →
  (∀ i, decode s.nextCycle.word = .ok i →
    step s = exec i { s with pins := s.nextCycle.pins, script := s.script.tail, edge := s.edge + 1 }) ∧
  (∀ e, decode s.nextCycle.word = .error e → step s = .refused .reservedWord)

/-- The very next step of a state with a word presented runs exactly that word's instruction, with no reset and no tick,
and the scripted cycles wait behind it (log 13). -/
def Obligations.StepRunsPresentedWord : Prop := ∀ (s : State) (nbits w : Nat) (i : Instr),
  decodeTableWord nbits w = some i →
    ∃ p : Pins, p.rst = false ∧ p.tick = false ∧
      step (s.withFetchWord nbits w) = exec i { s with pins := p, edge := s.edge + 1 }

/-- An edge in a host port cycle always has a next state: nothing the host, the transport or the timebase does stops the
block (R125, R233, R266). -/
def Obligations.HostCycleHasNext : Prop := ∀ s : State, NoOtherMaster s → ∃ t, step s = .next t

/-- R52: the state after an edge with `rst = 1`, whatever the word and the other pins. -/
def Obligations.ResetEdge : Prop := ∀ s : State, s.nextCycle.pins.rst = true →
  ∃ t, step s = .next t ∧ t.st = .idle ∧ t.dl = 0 ∧
    (∀ n, t.readReg n =
      if n = 5 ∨ n = 6 then 1000 else if n = 17 then 0xFFF0D845 else 0) ∧
    t.busy = false ∧ t.done = false ∧ t.outcome = .none ∧ t.errstep = .none ∧ t.calv = false ∧
    t.hosterr = false ∧ t.tReqOut = false ∧ t.tOpOut = 0 ∧ t.tAOut = 0 ∧ t.tBOut = 0 ∧
    t.busyOut = false ∧ t.doneOut = false ∧
    t = { State.reset with
      selected := t.selected, devCfg := t.devCfg, devOpen := t.devOpen, devRun := t.devRun,
      pins := t.pins, script := t.script, edge := t.edge, hRdata := t.hRdata }

/-- R260, and R253 with the model's choice of log 10: after an edge with `rst = 1` no address is selected, so the target is
undefined until a SELECT ends without error; a reset that withdraws a request of the block leaves the target open; with no
request outstanding and in a host port cycle every device stays as it was. -/
def Obligations.ResetAndTheDevice : Prop := ∀ s t : State, s.nextCycle.pins.rst = true → step s = .next t →
  t.selected = none ∧
  (s.tReqOut = true → DeviceForgotten s.sampled t) ∧
  (s.tReqOut = false → NoOtherMaster s → DeviceSame s t)

/-! ## Invariants -/

/-- The invariants hold at reset (R52). -/
def Obligations.ResetIsSound : Prop :=
  Consistent State.reset ∧ MemoryForm State.reset ∧ CaptureOrder State.reset

/-- Every step keeps the block consistent: R30, R31, R32, R50, R103, R165, R172, R181 and the table of R227. -/
def Obligations.StepKeepsConsistent : Prop := ∀ s t : State, Consistent s → step s = .next t → Consistent t

/-- Every step keeps the sparse memories in canonical form (the form is the model's, log 5). -/
def Obligations.StepKeepsMemoryForm : Prop := ∀ s t : State, MemoryForm s → step s = .next t → MemoryForm t

/-- R167, R259: as long as no other master is on the transport port (R261), every step keeps the order of CAPTURE at the
selected device: configuration before Start, Start before polling, all with the configuration in CFG. -/
def Obligations.StepKeepsCaptureOrder : Prop := ∀ s t : State, NoOtherMaster s → CaptureOrder s →
  step s = .next t → CaptureOrder t

/-- R181: every step without reset follows an arrow of the FSM graph. -/
def Obligations.StepFollowsGraph : Prop := ∀ s t : State, Consistent s → s.nextCycle.pins.rst = false →
  step s = .next t → follows s.st t.st = true

/-! ## Host port -/

/-- R120: RD shows the register zero-extended, 0 for the reserved numbers, in every state; beside that the edge is the
sequencer's and the read changes nothing. -/
def Obligations.ReadRegister : Prop := ∀ (s : State) (n : BitVec 5) (g : Word), ∃ v,
  exec (.rd n g) s = .next { sequencer s.pins s with hRdata := v } ∧
  (n = 0 → v = s.cmd.zeroExtend 32) ∧
  (n = 1 → v = (BitVec.ofBool s.hosterr ++ BitVec.ofBool s.calv ++ s.errstep.code ++ s.outcome.code ++
    BitVec.ofBool s.done ++ BitVec.ofBool (decide (s.st ≠ .idle))).zeroExtend 32) ∧
  (n = 2 → v = s.addr.zeroExtend 32) ∧ (n = 3 → v = s.cfg.zeroExtend 32) ∧ (n = 4 → v = s.extref) ∧
  (n = 5 → v = s.maxwait.zeroExtend 32) ∧ (n = 6 → v = s.pollus.zeroExtend 32) ∧
  (n = 7 → v = s.raw.zeroExtend 32) ∧ (n = 8 → v = s.elapsed) ∧ (n = 9 → v = s.stshadow.zeroExtend 32) ∧
  (n = 10 → v = s.fegain) ∧ (n = 11 → v = s.calloPh) ∧ (n = 12 → v = s.calloV) ∧ (n = 13 → v = s.calhiPh) ∧
  (n = 14 → v = s.calhiV) ∧ (n = 15 → v = s.slope) ∧ (n = 16 → v = s.v7) ∧ (n = 17 → v = s.thslope) ∧
  (n = 18 → v = s.volts) ∧ (n = 19 → v = s.vinput) ∧ (n = 20 → v = s.ph) ∧ (n = 21 → v = s.phu) ∧
  (22 ≤ n.toNat → v = 0)

/-- RD while idle completes with nothing changed but what the host reads (R120, R176). -/
def Obligations.ReadIdle : Prop := ∀ (s : State) (n : BitVec 5) (g : Word), s.st = .idle →
  exec (.rd n g) s = .next { s with hRdata := s.readReg n }

/-- R122: a write to STATUS clears HOSTERR when bit 9 is 1 and does nothing else, busy or idle. -/
def Obligations.WriteStatus : Prop := ∀ (s : State) (d : Word), ∃ t,
  exec (.rd 1 0) s = .next t ∧
  exec (.wr 1 d) s = .next { t with hosterr := if d.getLsbD 9 then false else s.hosterr }

/-- R123: a write while idle to an operand register stores the low bits and changes nothing else, but for the model's own
record `hRdata` of what the port shows (log 6); to a read-only or reserved number it sets HOSTERR only. -/
def Obligations.WriteOperandRegister : Prop := ∀ (s : State) (d : Word), s.st = .idle →
  (let writes := fun (n : BitVec 5) (t : State) => ∃ h, exec (.wr n d) s = .next { t with hRdata := h }
   writes 2 { s with addr := d.truncate 8 } ∧
   writes 3 { s with cfg := d.truncate 8 } ∧
   writes 4 { s with extref := d } ∧
   writes 5 { s with maxwait := d.truncate 16 } ∧
   writes 6 { s with pollus := d.truncate 16 } ∧
   writes 10 { s with fegain := d } ∧
   writes 11 { s with calloPh := d } ∧
   writes 12 { s with calloV := d } ∧
   writes 13 { s with calhiPh := d } ∧
   writes 14 { s with calhiV := d } ∧
   writes 17 { s with thslope := d } ∧
   writes 18 { s with volts := d } ∧
   writes 19 { s with vinput := d } ∧
   ∀ n : BitVec 5, (n = 7 ∨ n = 8 ∨ n = 9 ∨ n = 15 ∨ n = 16 ∨ n = 20 ∨ n = 21 ∨ 22 ≤ n.toNat) →
     writes n { s with hosterr := true })

/-- R124: a write to anything but STATUS while busy, an operation issue included, is lost: HOSTERR is set, and the edge
is otherwise the one without a write. -/
def Obligations.WriteWhileBusy : Prop := ∀ (s : State) (x : BitVec 28), s.st ≠ .idle →
  (∀ (n : BitVec 5) (d : Word), n ≠ 1 → ∃ t, exec (.rd n 0) s = .next t ∧
    exec (.wr n d) s = .next { t with hosterr := true }) ∧
  ∃ t, exec (.rd 0 0) s = .next t ∧ ∀ op : HostOp, exec (op.instr x) s = .next { t with hosterr := true }

/-- R126: a write to CMD is the issue of its operation for a defined op code, bits 31:4 ignored; while idle a reserved op
code sets HOSTERR and nothing else. -/
def Obligations.WriteCmd : Prop :=
  (∀ (s : State) (x : BitVec 28) (op : HostOp), exec (.wr 0 (x ++ op.code)) s = exec (op.instr x) s) ∧
  (∀ (s : State) (x : BitVec 28) (op : HostOp), exec (op.instr x) s = exec (op.instr 0) s) ∧
  ∀ (s : State) (d : Word), s.st = .idle → (d &&& 0xF = 0 ∨ 13 ≤ (d &&& 0xF).toNat) →
    exec (.wr 0 d) s = .next { s with hosterr := true, hRdata := s.readReg 0 }

/-- R126, R127: the acceptance of every operation while idle: CMD, DONE, OUTCOME, ERRSTEP and the first state; WAITRDY
clears ELAPSED; WRCFG and CAPTURE need a valid configuration. -/
def Obligations.OperationAccepted : Prop := ∀ (s : State) (x : BitVec 28), s.st = .idle →
  (let u := { s with done := false, outcome := .none, errstep := .none, hRdata := s.readReg 0 }
   exec (.select x) s = .next { u with cmd := 1, st := .tSel } ∧
   exec (.devReset x) s = .next { u with cmd := 2, st := .tRst } ∧
   exec (.start x) s = .next { u with cmd := 4, st := .tStart } ∧
   exec (.waitrdy x) s = .next { u with cmd := 5, st := .tPoll, elapsed := 0 } ∧
   exec (.rdraw x) s = .next { u with cmd := 6, st := .tRead } ∧
   exec (.code2v x) s = .next { u with cmd := 8, st := .scExec } ∧
   exec (.v2in x) s = .next { u with cmd := 9, st := .scExec } ∧
   exec (.dcal x) s = .next { u with cmd := 10, st := .scExec } ∧
   exec (.v2ph x) s = .next { u with cmd := 11, st := .scExec } ∧
   exec (.v2phu x) s = .next { u with cmd := 12, st := .scExec } ∧
   (s.cfg.getLsbD 0 = false ∨ 0 < s.extref.toInt →
     exec (.wrcfg x) s = .next { u with cmd := 3, st := .tCfg } ∧
     exec (.capture x) s = .next { u with cmd := 7, st := .tRst }))

/-- R165, R126: WRCFG and CAPTURE with the external reference selected and EXTREF zero or negative end ERR_CONFIG at the
accepting edge; `st` stays IDLE and no register but CMD and STATUS changes. -/
def Obligations.ConfigCheckRefuses : Prop := ∀ (s : State) (x : BitVec 28), s.st = .idle →
  s.cfg.getLsbD 0 = true → s.extref.toInt ≤ 0 →
  (let u := { s with done := true, outcome := .errConfig, errstep := .none, hRdata := s.readReg 0 }
   exec (.wrcfg x) s = .next { u with cmd := 3 } ∧ exec (.capture x) s = .next { u with cmd := 7 })

/-- R125, R34: whatever the instruction, HOSTERR after it is cleared only by a STATUS write with bit 9 set, set exactly by
the three misuses of R125, and otherwise as before. -/
def Obligations.HostErrorExactly : Prop := ∀ (i : Instr) (s t : State), i.wf = true → exec i s = .next t →
  t.hosterr =
    match i with
    | .wr n d =>
      if n = 1 then s.hosterr && !d.getLsbD 9
      else if s.st ≠ .idle then true
      else if n = 0 ∨ n = 7 ∨ n = 8 ∨ n = 9 ∨ n = 15 ∨ n = 16 ∨ n = 20 ∨ n = 21 ∨ 22 ≤ n.toNat then true
      else s.hosterr
    | .select _ | .devReset _ | .wrcfg _ | .start _ | .waitrdy _ | .rdraw _ | .capture _
    | .code2v _ | .v2in _ | .dcal _ | .v2ph _ | .v2phu _ => if s.st ≠ .idle then true else s.hosterr
    | .rd _ _ | .dvReset | .dvStartSync | .dvReadData | .dvReadConfig | .dvReadStatus | .dvWriteConfig _ _
    | .tSelect _ _ | .tWriteCmd _ _ | .tWriteCmdData _ _ | .tReadByte _ _ | .tReadWord _ _ => s.hosterr

/-- R29, R36, R234: while an operation is in flight no instruction changes CMD or an operand register. -/
def Obligations.BusyFreezesOperands : Prop := ∀ (i : Instr) (s t : State), s.st ≠ .idle → exec i s = .next t →
  t.cmd = s.cmd ∧ t.addr = s.addr ∧ t.cfg = s.cfg ∧ t.extref = s.extref ∧ t.maxwait = s.maxwait ∧
  t.pollus = s.pollus ∧ t.fegain = s.fegain ∧ t.calloPh = s.calloPh ∧ t.calloV = s.calloV ∧
  t.calhiPh = s.calhiPh ∧ t.calhiV = s.calhiV ∧ t.thslope = s.thslope ∧
  (s.st ≠ .scExec → t.volts = s.volts ∧ t.vinput = s.vinput)

/-! ## The request port -/

/-- R65, R23: the request outputs per FSM state; the command bytes sent are five of the six (R97). -/
def Obligations.RequestOutputs : Prop := ∀ s : State,
  (s.st = .tSel → s.tReqOut = true ∧ s.tOpOut = 0 ∧ s.tAOut = s.addr ∧ s.tBOut = 0) ∧
  (s.st = .tRst → s.tReqOut = true ∧ s.tOpOut = 1 ∧ s.tAOut = 0x06 ∧ s.tBOut = 0) ∧
  (s.st = .tCfg → s.tReqOut = true ∧ s.tOpOut = 2 ∧ s.tAOut = 0x40 ∧ s.tBOut = s.cfg &&& 0xF0) ∧
  (s.st = .tStart → s.tReqOut = true ∧ s.tOpOut = 1 ∧ s.tAOut = 0x08 ∧ s.tBOut = 0) ∧
  (s.st = .tPoll → s.tReqOut = true ∧ s.tOpOut = 3 ∧ s.tAOut = 0x24 ∧ s.tBOut = 0) ∧
  (s.st = .tRead → s.tReqOut = true ∧ s.tOpOut = 4 ∧ s.tAOut = 0x10 ∧ s.tBOut = 0) ∧
  (s.st = .idle ∨ s.st = .wDelay ∨ s.st = .scExec →
    s.tReqOut = false ∧ s.tOpOut = 0 ∧ s.tAOut = 0 ∧ s.tBOut = 0)

/-- R65: whatever the instruction, a request that is not acknowledged is held with the same values. -/
def Obligations.RequestHeld : Prop := ∀ (i : Instr) (s t : State), s.tReqOut = true → s.pins.ack = false →
  exec i s = .next t →
  t.st = s.st ∧ t.tReqOut = true ∧ t.tOpOut = s.tOpOut ∧ t.tAOut = s.tAOut ∧ t.tBOut = s.tBOut

/-- R92, R140 to R145: each device command row is its one transport operation with `t_b` 0, or the configuration byte. -/
def Obligations.DeviceCommandIsTransaction : Prop := ∀ s : State,
  exec .dvReset s = exec (.tWriteCmd 0x06 0) s ∧ exec .dvStartSync s = exec (.tWriteCmd 0x08 0) s ∧
  exec .dvReadData s = exec (.tReadWord 0x10 0) s ∧ exec .dvReadConfig s = exec (.tReadByte 0x20 0) s ∧
  exec .dvReadStatus s = exec (.tReadByte 0x24 0) s ∧
  ∀ (mux : BitVec 3) (gain : BitVec 1),
    exec (.dvWriteConfig mux gain) s = exec (.tWriteCmdData 0x40 (mux ++ gain ++ 0#4)) s

/-! ## Transactions of the block, edge by edge -/

/-- R146, R160, R177: T_SELECT as the block's own request (log 3). The address is selected on success (log 5); after a
failed select none is, the target being undefined then (R260), and every device stays as it was, which is the model's
choice (log 7, unsafe). -/
def Obligations.SelectTransaction : Prop := ∀ s : State, s.st = .tSel →
  (s.pins.ack = false → exec (.tSelect s.addr 0) s = .next s) ∧
  (s.pins.ack = true → s.pins.err = false → exec (.tSelect s.addr 0) s =
    .next { s with selected := some s.addr, outcome := .ok, done := true, st := .idle }) ∧
  (s.pins.ack = true → s.pins.err = true → exec (.tSelect s.addr 0) s =
    .next { s with
      selected := none, outcome := .errTransport, errstep := .select, done := true, st := .idle })

/-- R140, R147, R161, R177: the Reset command as the block's own request; behind the port the device's
register is any value afterwards (log 7, log 8). -/
def Obligations.ResetTransaction : Prop := ∀ s : State, s.st = .tRst → ∃ t,
  exec .dvReset s = .next t ∧ exec (.tWriteCmd 0x06 0) s = .next t ∧
  (s.pins.ack = false → t = s) ∧
  (s.pins.ack = true → DeviceForgotten s t ∧
    (let u := { s with devCfg := t.devCfg, devOpen := t.devOpen, devRun := t.devRun }
     (s.pins.err = true →
       t = { u with outcome := .errTransport, errstep := .reset, done := true, st := .idle }) ∧
     (s.pins.err = false → s.cmd ≠ 7 → t = { u with outcome := .ok, done := true, st := .idle }) ∧
     (s.pins.err = false → s.cmd = 7 → t = { u with st := .tCfg })))

/-- R145, R148, R162, R177: the configuration write as the block's own request; on success the selected device's
configuration register holds CFG & 0xF0 (R74), after a failure the device is open (log 7). -/
def Obligations.ConfigTransaction : Prop := ∀ s : State, s.st = .tCfg → ∃ t,
  exec (.dvWriteConfig (s.cfg.extractLsb' 5 3) (s.cfg.extractLsb' 4 1)) s = .next t ∧
  exec (.tWriteCmdData 0x40 (s.cfg &&& 0xF0)) s = .next t ∧
  (s.pins.ack = false → t = s) ∧
  (s.pins.ack = true →
    (let u := { s with devCfg := t.devCfg, devOpen := t.devOpen, devRun := t.devRun }
     (s.pins.err = true → DeviceForgotten s t ∧
       t = { u with outcome := .errTransport, errstep := .wrcfg, done := true, st := .idle }) ∧
     (s.pins.err = false → DeviceConfigured (s.cfg &&& 0xF0) s t ∧
       (s.cmd ≠ 7 → t = { u with outcome := .ok, done := true, st := .idle }) ∧
       (s.cmd = 7 → t = { u with st := .tStart }))))

/-- R141, R147, R163, R177: the Start command as the block's own request; under CAPTURE polling begins with ELAPSED 0; the
selected device begins a conversion with its configuration register (R77); after a failure it is open (log 7). -/
def Obligations.StartTransaction : Prop := ∀ s : State, s.st = .tStart → ∃ t,
  exec .dvStartSync s = .next t ∧ exec (.tWriteCmd 0x08 0) s = .next t ∧
  (s.pins.ack = false → t = s) ∧
  (s.pins.ack = true →
    (let u := { s with devCfg := t.devCfg, devOpen := t.devOpen, devRun := t.devRun }
     (s.pins.err = true → DeviceForgotten s t ∧
       t = { u with outcome := .errTransport, errstep := .start, done := true, st := .idle }) ∧
     (s.pins.err = false → DeviceStarted s t ∧
       (s.cmd ≠ 7 → t = { u with outcome := .ok, done := true, st := .idle }) ∧
       (s.cmd = 7 → t = { u with elapsed := 0, st := .tPoll }))))

/-- R178 (with R144, R149, R169 to R172): the status read as the block's own request (log 3); after a failure the device
is open (log 7). -/
def Obligations.PollTransaction : Prop := ∀ s : State, s.st = .tPoll → ∃ t,
  exec .dvReadStatus s = .next t ∧ exec (.tReadByte 0x24 0) s = .next t ∧
  (let u := { s with
     devCfg := t.devCfg, devOpen := t.devOpen, devRun := t.devRun,
     elapsed := if s.pins.tick then BitVec.ofNat 32 (min (s.elapsed.toNat + 1) 0xFFFFFFFF) else s.elapsed }
   let b := s.pins.rdata.truncate 8
   (s.pins.ack = false → DeviceSame s t ∧ t = u) ∧
   (s.pins.ack = true → s.pins.err = true → DeviceForgotten s t ∧
     t = { u with outcome := .errTransport, errstep := .poll, done := true, st := .idle }) ∧
   (s.pins.ack = true → s.pins.err = false → DeviceSame s t ∧
     (b.getLsbD 7 = true →
       (s.cmd = 7 → t = { u with stshadow := b, st := .tRead }) ∧
       (s.cmd ≠ 7 → t = { u with stshadow := b, outcome := .ok, done := true, st := .idle })) ∧
     (b.getLsbD 7 = false →
       (s.maxwait.toNat * 1000 ≤ s.elapsed.toNat →
         t = { u with
           stshadow := b, raw := if s.cmd = 7 then 0xFFFF else s.raw,
           outcome := .timeout, done := true, st := .idle }) ∧
       (s.elapsed.toNat < s.maxwait.toNat * 1000 →
         (s.pollus = 0 → t = { u with stshadow := b }) ∧
         (s.pollus ≠ 0 → t = { u with stshadow := b, dl := s.pollus, st := .wDelay })))))

/-- R179: the inter-poll delay, edge by edge, whatever the acknowledge; `hRdata` is the model's own record of what the
port shows (log 6). -/
def Obligations.DelayEdge : Prop := ∀ (s : State) (n : BitVec 5) (g : Word), s.st = .wDelay → ∃ h,
  (let u := { s with hRdata := h }
   let e := BitVec.ofNat 32 (min (s.elapsed.toNat + 1) 0xFFFFFFFF)
   (s.pins.tick = false → exec (.rd n g) s = .next u) ∧
   (s.pins.tick = true → s.dl.toNat ≤ 1 →
     exec (.rd n g) s = .next { u with elapsed := e, dl := 0, st := .tPoll }) ∧
   (s.pins.tick = true → 1 < s.dl.toNat →
     exec (.rd n g) s = .next { u with elapsed := e, dl := s.dl - 1 }))

/-- R180 (with R142, R150, R174): the data read as the block's own request (log 3); RAW takes the byte-swapped word; after
a failure the device is open (log 7). -/
def Obligations.ReadTransaction : Prop := ∀ s : State, s.st = .tRead → ∃ t,
  exec .dvReadData s = .next t ∧ exec (.tReadWord 0x10 0) s = .next t ∧
  (s.pins.ack = false → t = s) ∧
  (s.pins.ack = true → s.pins.err = true → DeviceForgotten s t ∧
    t = { s with
      devCfg := t.devCfg, devOpen := t.devOpen, devRun := t.devRun,
      outcome := .errTransport, errstep := .read, done := true, st := .idle }) ∧
  (s.pins.ack = true → s.pins.err = false →
    t = { s with
      raw := s.pins.rdata.extractLsb' 0 8 ++ s.pins.rdata.extractLsb' 8 8,
      outcome := .ok, done := true, st := .idle })

/-- An acknowledge at an edge without a host write ends the block's own request the same way whether it comes in a host
port cycle or as the transaction word (log 3). -/
def Obligations.OwnTransactionIsTheEdge : Prop := ∀ (s : State) (w : PortWord) (i : Instr) (r : TReq),
  s.request = some r → decode w = .ok i → w = .treq (r.op.code ++ r.a ++ r.b) →
  ∃ t, exec i s = .next t ∧ ∀ (n : BitVec 5) (g : Word), exec (.rd n g) s = .next { t with hRdata := s.readReg n }

/-- R175, R221, R233: an acknowledged transaction with `t_err = 1` ends the operation in flight, with the step of the
state it was sampled in; RAW and STSHADOW are not written. -/
def Obligations.TransportErrorEnds : Prop := ∀ (s : State) (n : BitVec 5) (g : Word), s.tReqOut = true →
  s.pins.ack = true → s.pins.err = true → ∃ t, exec (.rd n g) s = .next t ∧
    t.outcome = .errTransport ∧ t.done = true ∧ t.st = .idle ∧ t.tReqOut = false ∧
    t.errstep = (match s.st with
      | .tSel => .select | .tRst => .reset | .tCfg => .wrcfg | .tStart => .start | .tPoll => .poll
      | .tRead => .read | .idle | .wDelay | .scExec => s.errstep) ∧
    t.raw = s.raw ∧ t.stshadow = s.stshadow ∧
    t.elapsed = (if s.st = .tPoll ∧ s.pins.tick = true
      then BitVec.ofNat 32 (min (s.elapsed.toNat + 1) 0xFFFFFFFF) else s.elapsed) ∧
    t = { s with
      outcome := t.outcome, errstep := t.errstep, done := t.done, st := t.st, elapsed := t.elapsed,
      selected := t.selected, devCfg := t.devCfg, devOpen := t.devOpen, devRun := t.devRun, hRdata := t.hRdata }

/-- R24, R232: in a state with no transaction outstanding the acknowledge, the error bit and the read data make no
difference to a host port cycle; `t_err` and `t_rdata` make none where `t_ack = 0`. -/
def Obligations.ResponseIgnored : Prop := ∀ (i : Instr) (s : State) (p : Pins),
  (encode i).isHost = true → p.rst = s.pins.rst → p.tick = s.pins.tick →
  (s.tReqOut = false ∨ (s.pins.ack = false ∧ p.ack = false)) →
  ∀ t, exec i s = .next t → exec i { s with pins := p } = .next { t with pins := p }

/-- Another master's transaction while the block drives no request, that is in IDLE, W_DELAY and SC_EXEC (model's choice,
log 3): the block takes its edge as without an acknowledge, in IDLE none of its registers changes, and nothing happens
behind the port without an acknowledge. An acknowledged transaction has its effect there: a select, a Start and a
configuration write that did not fail as R146, R141 and R145 give it. The rest is the model's choice: a configuration
read settles a register the spec left open (log 9, unsafe); a failed select leaves every device as it was (log 7, unsafe);
any other failure (log 7, R70), the Reset command and a command byte outside the six or with another transport operation
than its own (log 8) leave the target open; a status or data read leaves every device as it was (log 5). -/
def Obligations.OtherMasterTransaction : Prop := ∀ (s : State) (a b : Byte), s.tReqOut = false →
  (∀ i, (encode i).isHost = false → ∃ t, exec i s = .next t ∧ WaitsBeside s t ∧
    (s.st = .idle → t = { s with
      selected := t.selected, devCfg := t.devCfg, devOpen := t.devOpen, devRun := t.devRun }) ∧
    (s.pins.ack = false → t.selected = s.selected ∧ t.devCfg = s.devCfg ∧ t.devOpen = s.devOpen ∧
      t.devRun = s.devRun)) ∧
  (s.pins.ack = true →
    (∃ t, exec (.tSelect a b) s = .next t ∧ t.selected = (if s.pins.err then none else some a) ∧ DeviceSame s t) ∧
    (∃ t, exec (.tWriteCmd a b) s = .next t ∧ t.selected = s.selected ∧
      (if s.pins.err = false ∧ a = 0x08 then DeviceStarted s t else DeviceForgotten s t)) ∧
    (∃ t, exec (.tWriteCmdData a b) s = .next t ∧ t.selected = s.selected ∧
      (if s.pins.err = false ∧ a = 0x40 then DeviceConfigured b s t else DeviceForgotten s t)) ∧
    (∃ t, exec (.tReadByte a b) s = .next t ∧ t.selected = s.selected ∧
      (if s.pins.err = false ∧ a = 0x24 then DeviceSame s t
       else if s.pins.err = false ∧ a = 0x20 then
        (if s.configOpen s.target.toNat then DeviceConfigured (s.pins.rdata.truncate 8) s t else DeviceSame s t)
       else DeviceForgotten s t)) ∧
    (∃ t, exec (.tReadWord a b) s = .next t ∧ t.selected = s.selected ∧
      (if s.pins.err = false ∧ a = 0x10 then DeviceSame s t else DeviceForgotten s t)))

/-- R143, R74: the ReadConfigReg command, which the block never sends, in a state in which the block drives no request
(another master's, log 3). Acknowledged without error, the byte that came back settles the target's configuration register
where the spec left its content open (log 9); a content that is not open, as one last written, is kept. Acknowledged with
error, the command leaves the target open and every other device as it was (R70; model's choice, log 7). The block takes
its edge as without an acknowledge. -/
def Obligations.ReadConfigCommand : Prop := ∀ s : State, s.tReqOut = false →
  ∃ t, exec .dvReadConfig s = .next t ∧ WaitsBeside s t ∧ t.selected = s.selected ∧
    (s.pins.ack = false → DeviceSame s t) ∧
    (s.pins.ack = true → s.pins.err = false →
      (s.configOpen s.target.toNat = false → DeviceSame s t) ∧
      (s.configOpen s.target.toNat = true → DeviceConfigured (s.pins.rdata.truncate 8) s t)) ∧
    (s.pins.ack = true → s.pins.err = true → DeviceForgotten s t)

/-- While the block drives a request, another master's transaction leaves the block waiting: its edge is the one without
an acknowledge (model's choice, log 4; the spec forbids the situation, R78, R261). -/
def Obligations.OtherMasterWhileBusy : Prop := ∀ (s : State) (r : TReq) (i : Instr), s.tReqOut = true →
  decode (.treq (r.op.code ++ r.a ++ r.b)) = .ok i → s.request ≠ some r →
  ∃ t, exec i s = .next t ∧ WaitsBeside s t ∧ t.st = s.st

/-! ## Unit SC -/

/-- R201, R202: CODE2V from issue to completion, under any pins. Here and in the four statements after it `h` is the
model's own record of what the port shows (log 6). -/
def Obligations.Code2v : Prop := ∀ (s : State) (x : BitVec 28) (n : BitVec 5) (g : Word) (p : Pins), s.st = .idle →
  ∃ s1 h, exec (.code2v x) s = .next s1 ∧ s1.st = .scExec ∧
    (let s2 := { s1 with pins := p }
     let u := { s with cmd := 8, done := true, errstep := .none, pins := p, hRdata := h }
     let ref : Int := if s.cfg.getLsbD 0 then s.extref.toInt else 34359738
     let gain : Int := if s.cfg.getLsbD 4 then 4 else 1
     let v := Int.tdiv (s.raw.toInt * ref) (32768 * gain)
     (s.cfg.getLsbD 0 = true → s.extref.toInt ≤ 0 →
       exec (.rd n g) s2 = .next { u with outcome := .errConfig }) ∧
     (s.cfg.getLsbD 0 = false ∨ 0 < s.extref.toInt →
       exec (.rd n g) s2 = .next { u with outcome := .ok, volts := BitVec.ofInt 32 v }))

/-- R203, R204: V2IN from issue to completion, under any pins. -/
def Obligations.V2in : Prop := ∀ (s : State) (x : BitVec 28) (n : BitVec 5) (g : Word) (p : Pins), s.st = .idle →
  ∃ s1 h, exec (.v2in x) s = .next s1 ∧ s1.st = .scExec ∧
    (let s2 := { s1 with pins := p }
     let u := { s with cmd := 9, done := true, errstep := .none, pins := p, hRdata := h }
     let r := Int.tdiv (s.volts.toInt * 16777216) s.fegain.toInt
     (s.fegain = 0 → exec (.rd n g) s2 = .next { u with outcome := .errDivZero }) ∧
     (s.fegain ≠ 0 → -2147483648 ≤ r → r ≤ 2147483647 →
       exec (.rd n g) s2 = .next { u with outcome := .ok, vinput := BitVec.ofInt 32 r }) ∧
     (s.fegain ≠ 0 → r < -2147483648 ∨ 2147483647 < r →
       exec (.rd n g) s2 = .next { u with outcome := .errOverflow }))

/-- R205 to R208: DCAL from issue to completion, under any pins; the tests in the order of R231. -/
def Obligations.Dcal : Prop := ∀ (s : State) (x : BitVec 28) (n : BitVec 5) (g : Word) (p : Pins), s.st = .idle →
  ∃ s1 h, exec (.dcal x) s = .next s1 ∧ s1.st = .scExec ∧
    (let s2 := { s1 with pins := p }
     let u := { s with cmd := 10, done := true, errstep := .none, pins := p, hRdata := h }
     let slope := Int.tdiv ((s.calhiV.toInt - s.calloV.toInt) * 16777216) (s.calhiPh.toInt - s.calloPh.toInt)
     let z := Int.tdiv ((117440512 - s.calloPh.toInt) * slope) 16777216 + s.calloV.toInt
     let fits := fun r : Int => -2147483648 ≤ r ∧ r ≤ 2147483647
     (s.calhiPh = s.calloPh → exec (.rd n g) s2 = .next { u with outcome := .errConfig, calv := false }) ∧
     (s.calhiPh ≠ s.calloPh → fits slope → fits z →
       exec (.rd n g) s2 = .next { u with
         outcome := .ok, slope := BitVec.ofInt 32 slope, v7 := BitVec.ofInt 32 z, calv := true }) ∧
     (s.calhiPh ≠ s.calloPh → ¬ (fits slope ∧ fits z) →
       exec (.rd n g) s2 = .next { u with outcome := .errOverflow, calv := false }))

/-- R209, R210: V2PH from issue to completion, under any pins; the tests in the order of R231. -/
def Obligations.V2ph : Prop := ∀ (s : State) (x : BitVec 28) (n : BitVec 5) (g : Word) (p : Pins), s.st = .idle →
  ∃ s1 h, exec (.v2ph x) s = .next s1 ∧ s1.st = .scExec ∧
    (let s2 := { s1 with pins := p }
     let u := { s with cmd := 11, done := true, errstep := .none, pins := p, hRdata := h }
     let r := 117440512 + Int.tdiv ((s.vinput.toInt - s.v7.toInt) * 16777216) s.slope.toInt
     (s.calv = false → exec (.rd n g) s2 = .next { u with outcome := .errConfig }) ∧
     (s.calv = true → s.slope = 0 → exec (.rd n g) s2 = .next { u with outcome := .errDivZero }) ∧
     (s.calv = true → s.slope ≠ 0 → -2147483648 ≤ r → r ≤ 2147483647 →
       exec (.rd n g) s2 = .next { u with outcome := .ok, ph := BitVec.ofInt 32 r }) ∧
     (s.calv = true → s.slope ≠ 0 → r < -2147483648 ∨ 2147483647 < r →
       exec (.rd n g) s2 = .next { u with outcome := .errOverflow }))

/-- R211: V2PHU from issue to completion, under any pins. -/
def Obligations.V2phu : Prop := ∀ (s : State) (x : BitVec 28) (n : BitVec 5) (g : Word) (p : Pins), s.st = .idle →
  ∃ s1 h, exec (.v2phu x) s = .next s1 ∧ s1.st = .scExec ∧
    (let s2 := { s1 with pins := p }
     let u := { s with cmd := 12, done := true, errstep := .none, pins := p, hRdata := h }
     let r := 117440512 + Int.tdiv (s.vinput.toInt * 16777216) s.thslope.toInt
     (s.thslope = 0 → exec (.rd n g) s2 = .next { u with outcome := .errDivZero }) ∧
     (s.thslope ≠ 0 → -2147483648 ≤ r → r ≤ 2147483647 →
       exec (.rd n g) s2 = .next { u with outcome := .ok, phu := BitVec.ofInt 32 r }) ∧
     (s.thslope ≠ 0 → r < -2147483648 ∨ 2147483647 < r →
       exec (.rd n g) s2 = .next { u with outcome := .errOverflow }))

/-- R200: an SC operation is busy for one edge whatever the port word and the pins: the next instruction, of any kind,
ends it. -/
def Obligations.ScEndsAtNextEdge : Prop := ∀ (i : Instr) (s t : State),
  s.st = .scExec → 8 ≤ s.cmd.toNat → s.cmd.toNat ≤ 12 → exec i s = .next t →
  t.st = .idle ∧ t.done = true ∧ t.outcome ≠ .none

/-- R197: an SC operation that ends with another outcome than OK writes none of its result registers, only a failing DCAL
clears CALV; no SC operation writes another register than its results or makes a transaction. -/
def Obligations.NoPartialResults : Prop := ∀ (s : State) (n : BitVec 5) (g : Word), s.st = .scExec →
  ∃ t, exec (.rd n g) s = .next t ∧ s.tReqOut = false ∧ t.tReqOut = false ∧
    (t.outcome ≠ .ok → t.volts = s.volts ∧ t.vinput = s.vinput ∧ t.slope = s.slope ∧ t.v7 = s.v7 ∧
      t.ph = s.ph ∧ t.phu = s.phu) ∧
    (s.cmd ≠ 8 → t.volts = s.volts) ∧ (s.cmd ≠ 9 → t.vinput = s.vinput) ∧
    (s.cmd ≠ 10 → t.slope = s.slope ∧ t.v7 = s.v7 ∧ t.calv = s.calv) ∧
    (s.cmd = 10 → (t.calv = true ↔ t.outcome = .ok)) ∧
    (s.cmd ≠ 11 → t.ph = s.ph) ∧ (s.cmd ≠ 12 → t.phu = s.phu) ∧
    t = { s with
      volts := t.volts, vinput := t.vinput, slope := t.slope, v7 := t.v7, calv := t.calv, ph := t.ph,
      phu := t.phu, outcome := t.outcome, done := t.done, st := t.st, hRdata := t.hRdata }

/-- R201: CODE2V cannot overflow: for every code and every reference the check lets through, the result fits fx32. -/
def Obligations.Code2vFits : Prop := ∀ (code : Half) (c : Byte) (e : Word), cfgOk c e = true →
  inRange (codeToVoltage code.toInt (refVoltage c e) (gainDivisor c)) = true

/-- R193, R194: a quotient and a product have one rounding, toward zero: the error is less than one unit of the divisor,
the result is never further from zero than the exact one, and its sign is that of the exact one or it is 0. -/
def Obligations.FxRounding : Prop := ∀ a b : Int,
  (b ≠ 0 →
    |fxDiv a b * b - a * 16777216| < |b| ∧ |fxDiv a b * b| ≤ |a * 16777216| ∧ 0 ≤ fxDiv a b * (a * b)) ∧
  (|fxMul a b * 16777216 - a * b| < 16777216 ∧ |fxMul a b * 16777216| ≤ |a * b| ∧ 0 ≤ fxMul a b * (a * b))

/-- R202: the source's two divisions, left to right, give the one division of the block. -/
def Obligations.TwoDivisionsAreOne : Prop := ∀ x g : Int, 0 < g → tdiv (tdiv x 32768) g = tdiv x (32768 * g)

/-- D2: truncation toward zero is symmetric in sign: CODE2V, V2IN and the slope are odd in their voltages, the volts at
pH 7 in slope and volts together, and the two pH formulas, which add the constant 7, are odd about pH 7. -/
def Obligations.FormulasAreOdd : Prop := ∀ v w : Int,
  (∀ ref g, codeToVoltage (-v) ref g = -codeToVoltage v ref g) ∧ (∀ gn, vToInput (-v) gn = -vToInput v gn) ∧
  (∀ lp hp, calSlope lp (-v) hp (-w) = -calSlope lp v hp w) ∧ (∀ lp, calV7 lp (-v) (-w) = -calV7 lp v w) ∧
  (∀ th, vToPhUncal (-v) th - seven = -(vToPhUncal v th - seven)) ∧
  (∀ slope, vToPh (w - v) slope w - seven = -(vToPh (w + v) slope w - seven))

/-- R199: what the fixed-point form keeps exactly. -/
def Obligations.ExactPoints : Prop :=
  (∀ ref g, codeToVoltage 0 ref g = 0) ∧ (∀ v7 slope, slope ≠ 0 → vToPh v7 slope v7 = seven) ∧
  (∀ th, th ≠ 0 → vToPhUncal 0 th = seven) ∧ codeToVoltage 32767 vrefInt 1 = 34358689

/-! ## Byte order and the configuration byte -/

/-- R68: the byte swap is its own inverse. -/
def Obligations.ByteSwapInvolutive : Prop := ∀ w : Half, bswap16 (bswap16 w) = w

/-- R96: the byte sent is `(mux << 5) | (gain << 4)`, its bits 3:0 are 0, and decoding it gives mux and gain back. -/
def Obligations.ConfigByteSent : Prop :=
  (∀ c : Byte, cfgSent c = configByte (c.extractLsb' 5 3) (c.extractLsb' 4 1) ∧
    cfgSent c = (((c >>> 5) <<< 5) ||| (((c >>> 4) &&& 1) <<< 4)) ∧ (cfgSent c).extractLsb' 0 4 = 0) ∧
  ∀ (mux : BitVec 3) (gain : BitVec 1),
    (configByte mux gain).extractLsb' 5 3 = mux ∧ (configByte mux gain).extractLsb' 4 1 = gain

/-! ## Whole operations and whole-machine rules -/

/-- R160 to R166: each stand-alone CP operation, issued while idle and acknowledged without error at the next edge (a
ready status for WAITRDY), ends OK with its effect: the selected address, the device's configuration, the conversion
begun, STSHADOW and ELAPSED, RAW. After DEVRESET the device is open (log 8). -/
def Obligations.StandAloneOpsComplete : Prop := ∀ (s : State) (x : BitVec 28) (p : Pins), s.st = .idle →
  p.ack = true → p.err = false →
  (let u := { s with
     outcome := .ok, done := true, errstep := .none, pins := p }
   let issued := fun (i : Instr) (t : State) => ∃ s1, exec i s = .next s1 ∧ s1.st ≠ .idle ∧ idleEdges [p] s1 = .next t
   (∃ t, issued (.select x) t ∧ t = { u with cmd := 1, selected := some s.addr, hRdata := t.hRdata }) ∧
   (∃ t, issued (.devReset x) t ∧ DeviceForgotten s t ∧
     t = { u with cmd := 2, devCfg := t.devCfg, devOpen := t.devOpen, devRun := t.devRun, hRdata := t.hRdata }) ∧
   (cfgOk s.cfg s.extref = true → ∃ t, issued (.wrcfg x) t ∧ DeviceConfigured (s.cfg &&& 0xF0) s t ∧
     t = { u with cmd := 3, devCfg := t.devCfg, devOpen := t.devOpen, devRun := t.devRun, hRdata := t.hRdata }) ∧
   (∃ t, issued (.start x) t ∧ DeviceStarted s t ∧
     t = { u with cmd := 4, devCfg := t.devCfg, devOpen := t.devOpen, devRun := t.devRun, hRdata := t.hRdata }) ∧
   (p.rdata.getLsbD 7 = true → ∃ t, issued (.waitrdy x) t ∧
     t = { u with
       cmd := 5, stshadow := p.rdata.truncate 8, elapsed := if p.tick then 1 else 0, hRdata := t.hRdata }) ∧
   (∃ t, issued (.rdraw x) t ∧ t = { u with cmd := 6, raw := bswap16 p.rdata, hRdata := t.hRdata }))

/-- R167: the shortest CAPTURE: issued while idle with a valid configuration, its five transactions acknowledged without
error one edge after the other and the first status ready, it ends OK with the byte-swapped data word in RAW; the selected
device was configured with CFG & 0xF0 and its conversion begun with that byte. -/
def Obligations.CaptureRuns : Prop := ∀ (s : State) (x : BitVec 28) (p1 p2 p3 p4 p5 : Pins), s.st = .idle →
  cfgOk s.cfg s.extref = true → (∀ p ∈ [p1, p2, p3, p4, p5], p.ack = true ∧ p.err = false) →
  p4.rdata.getLsbD 7 = true →
  ∃ s1 t, exec (.capture x) s = .next s1 ∧ idleEdges [p1, p2, p3, p4, p5] s1 = .next t ∧
    (∀ a, s.selected = some a →
      t.deviceConfig a.toNat = s.cfg &&& 0xF0 ∧ t.configOpen a.toNat = false ∧
      t.devRun.read a.toNat = some (s.cfg &&& 0xF0) ∧
      ∀ b : Nat, b ≠ a.toNat → ConfigSame s t b ∧ t.devRun.read b = s.devRun.read b) ∧
    t = { s with
      cmd := 7, outcome := .ok, done := true, errstep := .none, raw := bswap16 p5.rdata,
      stshadow := p4.rdata.truncate 8, elapsed := if p4.tick then 1 else 0,
      devCfg := t.devCfg, devOpen := t.devOpen, devRun := t.devRun, pins := p5, hRdata := t.hRdata }

/-- R173, R179: in W_DELAY with `dl` at least 1, any run of edges with fewer than `dl` ticks stays in W_DELAY with the
ticks counted off, and the edge of the `dl`-th tick goes to T_POLL; ELAPSED counts every tick, saturating. -/
def Obligations.DelayCountsTicks : Prop := ∀ (s : State) (ps : List Pins), s.st = .wDelay → 1 ≤ s.dl.toNat →
  (let k := (ps.filter (fun p => p.tick)).length
   (k < s.dl.toNat → ∃ t, idleEdges ps s = .next t ∧ t.st = .wDelay ∧ t.dl.toNat = s.dl.toNat - k ∧
     t.elapsed.toNat = min (s.elapsed.toNat + k) 0xFFFFFFFF) ∧
   (k + 1 = s.dl.toNat → ∀ p : Pins, p.tick = true → ∃ t, idleEdges (ps ++ [p]) s = .next t ∧ t.st = .tPoll ∧
     t.dl = 0 ∧ t.elapsed.toNat = min (s.elapsed.toNat + s.dl.toNat) 0xFFFFFFFF))

/-- R26 (column "written by"), R33, R40 to R42, R45, R47, R48: whatever the instruction, a result register changes only at
the edges its row allows: RAW by RDRAW and CAPTURE, STSHADOW and ELAPSED by WAITRDY and CAPTURE, SLOPE, V7 and CALV by
DCAL, VOLTS by CODE2V or the host, VINPUT by V2IN or the host, PH by V2PH, PHU by V2PHU. -/
def Obligations.ResultWriters : Prop := ∀ (i : Instr) (s t : State), Consistent s → i.wf = true → exec i s = .next t →
  (t.raw ≠ s.raw → (s.st = .tRead ∨ s.st = .tPoll) ∧ (s.cmd = 6 ∨ s.cmd = 7)) ∧
  (t.stshadow ≠ s.stshadow → s.st = .tPoll ∧ (s.cmd = 5 ∨ s.cmd = 7)) ∧
  (t.elapsed ≠ s.elapsed →
    ((s.st = .tPoll ∨ s.st = .wDelay) ∧ s.pins.tick = true ∧ (s.cmd = 5 ∨ s.cmd = 7)) ∨
    (s.st = .tStart ∧ s.cmd = 7 ∧ t.elapsed = 0) ∨ (s.st = .idle ∧ t.cmd = 5 ∧ t.elapsed = 0)) ∧
  (t.slope ≠ s.slope ∨ t.v7 ≠ s.v7 → s.st = .scExec ∧ s.cmd = 10 ∧ t.outcome = .ok) ∧
  (t.calv ≠ s.calv → s.st = .scExec ∧ s.cmd = 10) ∧
  (t.volts ≠ s.volts → (s.st = .scExec ∧ s.cmd = 8 ∧ t.outcome = .ok) ∨ (s.st = .idle ∧ ∃ d, i = .wr 18 d)) ∧
  (t.vinput ≠ s.vinput → (s.st = .scExec ∧ s.cmd = 9 ∧ t.outcome = .ok) ∨ (s.st = .idle ∧ ∃ d, i = .wr 19 d)) ∧
  (t.ph ≠ s.ph → s.st = .scExec ∧ s.cmd = 11 ∧ t.outcome = .ok) ∧
  (t.phu ≠ s.phu → s.st = .scExec ∧ s.cmd = 12 ∧ t.outcome = .ok)

/-- R36, R95, R268: DR and CM are inert. Two states that differ in CFG bits 3:1 only run the same edge, but for CFG itself
and the CFG the host reads. -/
def Obligations.InertConfigBits : Prop := ∀ (s : State) (c : Byte) (n : BitVec 5) (g : Word),
  c &&& 0xF1#8 = s.cfg &&& 0xF1#8 → n ≠ 3 →
  (∀ t, exec (.rd n g) s = .next t → exec (.rd n g) { s with cfg := c } = .next { t with cfg := c }) ∧
  (∀ (op : HostOp) (x : BitVec 28) (t : State), exec (op.instr x) s = .next t →
    exec (op.instr x) { s with cfg := c } = .next { t with cfg := c })

/-- R35 to R39, R43, R44, R46, R47: an operand register that the edge in flight does not name makes no difference to it.
ADDR is read by SELECT only; CFG and EXTREF by WRCFG and CAPTURE, at the accepting edge and (CFG) in T_CFG, and by CODE2V;
MAXWAIT and POLLUS at a status read, that is by WAITRDY and CAPTURE (R181); FEGAIN by V2IN; CALLO and CALHI by DCAL;
THSLOPE by V2PHU; VOLTS by V2IN; VINPUT by V2PH and V2PHU. CODE2V and V2IN write VOLTS and VINPUT without reading them. An
accepting edge while idle reads none of them but CFG and EXTREF. -/
def Obligations.OperandsReadOnlyByTheirOp : Prop := ∀ (s : State) (c : Byte) (m : BitVec 16) (v : Word),
  (let runs := fun u : State → State => sequencer s.pins (u s) = u (sequencer s.pins s)
   let sc := fun k : BitVec 4 => s.st = .scExec ∧ s.cmd = k
   let issues := fun (op : HostOp) (u : State → State) =>
     ∀ (x : BitVec 28) (t : State), exec (op.instr x) s = .next t → exec (op.instr x) (u s) = .next (u t)
   (s.st ≠ .tSel → runs (fun s => { s with addr := c })) ∧
   (s.st ≠ .tCfg → ¬ sc 8 → runs (fun s => { s with cfg := c })) ∧
   (¬ sc 8 → runs (fun s => { s with extref := v })) ∧
   (s.st ≠ .tPoll → runs (fun s => { s with maxwait := m }) ∧ runs (fun s => { s with pollus := m })) ∧
   (¬ sc 9 → runs (fun s => { s with fegain := v })) ∧
   (¬ sc 10 → runs (fun s => { s with calloPh := v }) ∧ runs (fun s => { s with calloV := v }) ∧
     runs (fun s => { s with calhiPh := v }) ∧ runs (fun s => { s with calhiV := v })) ∧
   (¬ sc 12 → runs (fun s => { s with thslope := v })) ∧
   (¬ sc 8 → ¬ sc 9 → runs (fun s => { s with volts := v })) ∧
   (sc 8 → { sequencer s.pins { s with volts := v } with volts := v } = { sequencer s.pins s with volts := v }) ∧
   (¬ sc 9 → ¬ sc 11 → ¬ sc 12 → runs (fun s => { s with vinput := v })) ∧
   (sc 9 → { sequencer s.pins { s with vinput := v } with vinput := v } = { sequencer s.pins s with vinput := v }) ∧
   (s.st = .idle → ∀ op : HostOp,
     (op ≠ .wrcfg → op ≠ .capture →
       issues op (fun s => { s with cfg := c }) ∧ issues op (fun s => { s with extref := v })) ∧
     issues op (fun s => { s with addr := c }) ∧ issues op (fun s => { s with maxwait := m }) ∧
     issues op (fun s => { s with pollus := m }) ∧ issues op (fun s => { s with fegain := v }) ∧
     issues op (fun s => { s with calloPh := v }) ∧ issues op (fun s => { s with calloV := v }) ∧
     issues op (fun s => { s with calhiPh := v }) ∧ issues op (fun s => { s with calhiV := v }) ∧
     issues op (fun s => { s with thslope := v }) ∧ issues op (fun s => { s with volts := v }) ∧
     issues op (fun s => { s with vinput := v })))
end

