-- ==== Sys2Proof/Laws/Decode.lean ====
section
/-! SUPPORT. The fields of an encoded word, field by field, and the op codes: what the round trips between words and
instructions need. -/

namespace Sys2Proof

@[simp] theorem HostOp.ofCode_code (op : HostOp) : HostOp.ofCode op.code = some op := by cases op <;> rfl

/-- An op code names an operation exactly when it is that operation's code. -/
theorem HostOp.ofCode_eq_some (c : BitVec 4) (op : HostOp) : HostOp.ofCode c = some op ↔ c = op.code := by
  constructor
  · revert c; cases op <;> decide
  · rintro rfl; exact HostOp.ofCode_code op

/-- The op codes that name an operation are the defined ones. -/
theorem HostOp.ofCode_isSome (c : BitVec 4) : (HostOp.ofCode c).isSome = definedOpCode c := by
  revert c; decide

/-- The bits of a concatenation, the widths added up. -/
theorem getLsbD_join {m n : Nat} (k : Nat) (hk : k = m + n) (x : BitVec m) (y : BitVec n) (i : Nat) :
    ((x ++ y).cast hk.symm).getLsbD i = if i < n then y.getLsbD i else x.getLsbD (i - n) := by
  simp [BitVec.getLsbD_append]

/-- The two fields of a CMD word. -/
theorem cmdWord_fields (x : BitVec 28) (c : BitVec 4) :
    BitVec.extractLsb' 0 4 (x ++ c : Word) = c ∧ BitVec.extractLsb' 4 28 (x ++ c : Word) = x := by
  constructor <;> apply BitVec.eq_of_getLsbD_eq <;> intro i hi <;>
    rw [BitVec.getLsbD_extractLsb'] <;>
    have h := getLsbD_join 32 rfl x c <;> simp only [BitVec.cast_eq] at h <;> rw [h]
  · simp [hi]
  · simp [hi]

/-- A CMD word is its two fields. -/
theorem cmdWord_join (d : Word) : (d.extractLsb' 4 28 ++ d.extractLsb' 0 4 : Word) = d := by
  apply BitVec.eq_of_getLsbD_eq
  intro i hi
  have h := getLsbD_join 32 rfl (d.extractLsb' 4 28) (d.extractLsb' 0 4) i
  simp only [BitVec.cast_eq] at h
  rw [h]
  split
  · simp [*]
  · rw [BitVec.getLsbD_extractLsb', Nat.add_sub_cancel' (by omega)]
    simp; omega

/-- The three fields of a host word. -/
theorem hostWord_fields (b : BitVec 1) (a : BitVec 5) (d : Word) :
    BitVec.getLsbD (b ++ a ++ d : BitVec 38) 37 = b.getLsbD 0 ∧
    BitVec.extractLsb' 32 5 (b ++ a ++ d : BitVec 38) = a ∧
    BitVec.extractLsb' 0 32 (b ++ a ++ d : BitVec 38) = d := by
  have h := fun i => getLsbD_join 38 rfl (b ++ a) d i
  have h2 := fun i => getLsbD_join 6 rfl b a i
  simp only [BitVec.cast_eq] at h h2
  refine ⟨?_, ?_, ?_⟩
  · rw [h, if_neg (by omega), h2, if_neg (by omega)]
  · apply BitVec.eq_of_getLsbD_eq
    intro i hi
    rw [BitVec.getLsbD_extractLsb', h, if_neg (by omega), h2, if_pos (by omega)]
    simp [hi]
  · apply BitVec.eq_of_getLsbD_eq
    intro i hi
    rw [BitVec.getLsbD_extractLsb', h, if_pos (by omega)]
    simp [hi]

/-- A host word is its three fields. -/
theorem hostWord_join (w : BitVec 38) :
    (BitVec.ofBool (w.getLsbD 37) ++ w.extractLsb' 32 5 ++ w.extractLsb' 0 32 : BitVec 38) = w := by
  apply BitVec.eq_of_getLsbD_eq
  intro i hi
  have h := getLsbD_join 38 rfl (BitVec.ofBool (w.getLsbD 37) ++ w.extractLsb' 32 5) (w.extractLsb' 0 32) i
  have h2 := getLsbD_join 6 rfl (BitVec.ofBool (w.getLsbD 37)) (w.extractLsb' 32 5) (i - 32)
  simp only [BitVec.cast_eq] at h h2
  rw [h]
  split
  · simp [*]
  · rw [h2]
    split
    · rw [BitVec.getLsbD_extractLsb', Nat.add_sub_cancel' (by omega)]
      simp; omega
    · obtain rfl : i = 37 := by omega
      simp

/-- The three fields of a transport request word. -/
theorem treqWord_fields (c : BitVec 3) (a b : Byte) :
    BitVec.extractLsb' 16 3 (c ++ a ++ b : BitVec 19) = c ∧ BitVec.extractLsb' 8 8 (c ++ a ++ b : BitVec 19) = a ∧
    BitVec.extractLsb' 0 8 (c ++ a ++ b : BitVec 19) = b := by
  have h := fun i => getLsbD_join 19 rfl (c ++ a) b i
  have h2 := fun i => getLsbD_join 11 rfl c a i
  simp only [BitVec.cast_eq] at h h2
  refine ⟨?_, ?_, ?_⟩ <;> apply BitVec.eq_of_getLsbD_eq <;> intro i hi <;>
    rw [BitVec.getLsbD_extractLsb', h]
  · rw [if_neg (by omega), h2, if_neg (by omega), show 16 + i - 8 - 8 = i by omega]
    simp [hi]
  · rw [if_neg (by omega), h2, if_pos (by omega)]
    simp [hi]
  · rw [if_pos (by omega)]
    simp [hi]

/-- A transport request word is its three fields. -/
theorem treqWord_join (w : BitVec 19) :
    (w.extractLsb' 16 3 ++ w.extractLsb' 8 8 ++ w.extractLsb' 0 8 : BitVec 19) = w := by
  apply BitVec.eq_of_getLsbD_eq
  intro i hi
  have h := getLsbD_join 19 rfl (w.extractLsb' 16 3 ++ w.extractLsb' 8 8) (w.extractLsb' 0 8) i
  have h2 := getLsbD_join 11 rfl (w.extractLsb' 16 3) (w.extractLsb' 8 8) (i - 8)
  simp only [BitVec.cast_eq] at h h2
  rw [h]
  split
  · simp [*]
  · rw [h2]
    split
    · rw [BitVec.getLsbD_extractLsb', Nat.add_sub_cancel' (by omega)]
      simp; omega
    · rw [BitVec.getLsbD_extractLsb', show 16 + (i - 8 - 8) = i by omega]
      simp; omega

end Sys2Proof
end

