-- ==== Sys2Proof/Laws/Memory.lean ====
section
/-! SUPPORT. The laws of the sparse memory: reading after a write, an erase or a set, and the canonical form. -/

namespace Sys2Proof.Machine

@[simp] theorem Memory.read_nil (a : Nat) : Memory.read [] a = none := rfl

/-- A write gives its value at its address and leaves every other address alone. -/
theorem Memory.read_write (m : Memory) (a b : Nat) (v : Byte) :
    Memory.read (Memory.write m a v) b = if b = a then some v else Memory.read m b := by
  induction m with
  | nil => simp [Memory.write, Memory.read, eq_comm]
  | cons c rest ih =>
    simp only [Memory.write]
    split
    · simp [Memory.read, eq_comm]
    · split
      · rename_i h1 h2
        subst h2
        simp only [Memory.read, eq_comm]
        split <;> simp_all
      · rename_i h1 h2
        simp only [Memory.read, ih]
        by_cases h : b = a
        · subst h; simp [Ne.symm h2]
        · simp [h]

@[simp] theorem Memory.read_write_same (m : Memory) (a : Nat) (v : Byte) :
    Memory.read (Memory.write m a v) a = some v := by simp [Memory.read_write]

/-- An erase forgets its address and leaves every other address alone. -/
theorem Memory.read_erase (m : Memory) (a b : Nat) :
    Memory.read (Memory.erase m a) b = if b = a then none else Memory.read m b := by
  induction m with
  | nil => simp [Memory.erase]
  | cons c rest ih =>
    simp only [Memory.erase]
    split
    · rename_i hc
      rw [ih]
      by_cases h : b = a
      · simp [h]
      · simp [h, Memory.read, hc, Ne.symm h]
    · rename_i hc
      simp only [Memory.read, ih]
      by_cases h : b = a
      · subst h; simp [hc]
      · simp [h]

/-- A set writes a known value and forgets otherwise. -/
theorem Memory.read_set (m : Memory) (a b : Nat) (v : Option Byte) :
    Memory.read (Memory.set m a v) b = if b = a then v else Memory.read m b := by
  cases v <;> simp [Memory.set, Memory.read_write, Memory.read_erase]

theorem Memory.wf_nil : Memory.wf [] := by simp [Memory.wf]

/-- The addresses of a written memory are the written one and old ones. -/
theorem Memory.mem_write (m : Memory) (a : Nat) (v : Byte) (c : Host.Cell) (h : c ∈ Memory.write m a v) :
    c = (a, v) ∨ c ∈ m := by
  induction m with
  | nil => simpa [Memory.write] using h
  | cons d rest ih =>
    simp only [Memory.write] at h
    split at h
    · simpa using h
    · split at h
      · rcases List.mem_cons.1 h with h | h
        · exact .inl h
        · exact .inr (List.mem_cons_of_mem _ h)
      · rcases List.mem_cons.1 h with h | h
        · exact .inr (h ▸ List.mem_cons_self)
        · exact (ih h).imp_right (List.mem_cons_of_mem _)

/-- A write inside the bus address space keeps the form. -/
theorem Memory.wf_write (m : Memory) (a : Nat) (v : Byte) (ha : a < 256) (hm : Memory.wf m) :
    Memory.wf (Memory.write m a v) := by
  refine ⟨?_, fun c hc => ?_⟩
  · have hs := hm.1
    clear hm
    induction m with
    | nil => simp [Memory.write]
    | cons d rest ih =>
      rw [List.pairwise_cons] at hs
      simp only [Memory.write]
      split
      · rename_i h
        refine List.pairwise_cons.2 ⟨fun c hc => ?_, List.pairwise_cons.2 hs⟩
        rcases List.mem_cons.1 hc with rfl | hc
        · exact h
        · exact lt_trans h (hs.1 c hc)
      · split
        · rename_i h1 h2
          exact List.pairwise_cons.2 ⟨fun c hc => h2 ▸ hs.1 c hc, hs.2⟩
        · rename_i h1 h2
          refine List.pairwise_cons.2 ⟨fun c hc => ?_, ih hs.2⟩
          rcases Memory.mem_write rest a v c hc with rfl | hc
          · show d.1 < a; omega
          · exact hs.1 c hc
  · rcases Memory.mem_write m a v c hc with rfl | hc
    · exact ha
    · exact hm.2 c hc

/-- The cells of an erased memory are old ones. -/
theorem Memory.mem_erase (m : Memory) (a : Nat) (c : Host.Cell) (h : c ∈ Memory.erase m a) : c ∈ m := by
  induction m with
  | nil => simp [Memory.erase] at h
  | cons d rest ih =>
    simp only [Memory.erase] at h
    split at h
    · exact List.mem_cons_of_mem _ (ih h)
    · rcases List.mem_cons.1 h with h | h
      · exact h ▸ List.mem_cons_self
      · exact List.mem_cons_of_mem _ (ih h)

/-- An erase keeps the form. -/
theorem Memory.wf_erase (m : Memory) (a : Nat) (hm : Memory.wf m) : Memory.wf (Memory.erase m a) := by
  refine ⟨?_, fun c hc => hm.2 c (Memory.mem_erase m a c hc)⟩
  have hs := hm.1
  clear hm
  induction m with
  | nil => simp [Memory.erase]
  | cons d rest ih =>
    rw [List.pairwise_cons] at hs
    simp only [Memory.erase]
    split
    · exact ih hs.2
    · exact List.pairwise_cons.2 ⟨fun c hc => hs.1 c (Memory.mem_erase rest a c hc), ih hs.2⟩

/-- A set inside the bus address space keeps the form. -/
theorem Memory.wf_set (m : Memory) (a : Nat) (v : Option Byte) (ha : a < 256) (hm : Memory.wf m) :
    Memory.wf (Memory.set m a v) := by
  cases v with
  | none => exact Memory.wf_erase m a hm
  | some b => exact Memory.wf_write m a b ha hm

/-- The cells of a kept memory hold no unlisted value when the old ones did not. -/
theorem Memory.mem_keep (m : Memory) (a : Nat) (b : Byte) (c : Host.Cell) (h : c ∈ Memory.keep m a b)
    (hm : ∀ c ∈ m, c.2 ≠ devCfgReset) : c.2 ≠ devCfgReset := by
  unfold Memory.keep at h
  split at h
  · exact hm c (Memory.mem_erase m a c h)
  · rcases Memory.mem_write m a b c h with rfl | h
    · assumption
    · exact hm c h

/-- What a kept memory holds: the byte at its address, the old one elsewhere. -/
theorem Memory.read_keep (m : Memory) (a b : Nat) (v : Byte) :
    (Memory.read (Memory.keep m a v) b).getD devCfgReset =
      if b = a then v else (Memory.read m b).getD devCfgReset := by
  unfold Memory.keep
  rw [Memory.read_set]
  split
  · split
    · rename_i h; exact h.symm
    · rfl
  · rfl

end Sys2Proof.Machine
end

