-- ==== Sys2Proof/Laws/State.lean ====
section
/-! SUPPORT. One lemma per field per state update of the shared operations, each true by `rfl`. -/

namespace Sys2Proof.Machine

/-! complete -/

@[simp] theorem complete_st (o : OutcomeCode) (s : State) : (complete o s).st = .idle := rfl
@[simp] theorem complete_dl (o : OutcomeCode) (s : State) : (complete o s).dl = s.dl := rfl
@[simp] theorem complete_cmd (o : OutcomeCode) (s : State) : (complete o s).cmd = s.cmd := rfl
@[simp] theorem complete_done (o : OutcomeCode) (s : State) : (complete o s).done = true := rfl
@[simp] theorem complete_outcome (o : OutcomeCode) (s : State) : (complete o s).outcome = o := rfl
@[simp] theorem complete_errstep (o : OutcomeCode) (s : State) : (complete o s).errstep = s.errstep := rfl
@[simp] theorem complete_calv (o : OutcomeCode) (s : State) : (complete o s).calv = s.calv := rfl
@[simp] theorem complete_hosterr (o : OutcomeCode) (s : State) : (complete o s).hosterr = s.hosterr := rfl
@[simp] theorem complete_addr (o : OutcomeCode) (s : State) : (complete o s).addr = s.addr := rfl
@[simp] theorem complete_cfg (o : OutcomeCode) (s : State) : (complete o s).cfg = s.cfg := rfl
@[simp] theorem complete_extref (o : OutcomeCode) (s : State) : (complete o s).extref = s.extref := rfl
@[simp] theorem complete_maxwait (o : OutcomeCode) (s : State) : (complete o s).maxwait = s.maxwait := rfl
@[simp] theorem complete_pollus (o : OutcomeCode) (s : State) : (complete o s).pollus = s.pollus := rfl
@[simp] theorem complete_raw (o : OutcomeCode) (s : State) : (complete o s).raw = s.raw := rfl
@[simp] theorem complete_elapsed (o : OutcomeCode) (s : State) : (complete o s).elapsed = s.elapsed := rfl
@[simp] theorem complete_stshadow (o : OutcomeCode) (s : State) : (complete o s).stshadow = s.stshadow := rfl
@[simp] theorem complete_fegain (o : OutcomeCode) (s : State) : (complete o s).fegain = s.fegain := rfl
@[simp] theorem complete_calloPh (o : OutcomeCode) (s : State) : (complete o s).calloPh = s.calloPh := rfl
@[simp] theorem complete_calloV (o : OutcomeCode) (s : State) : (complete o s).calloV = s.calloV := rfl
@[simp] theorem complete_calhiPh (o : OutcomeCode) (s : State) : (complete o s).calhiPh = s.calhiPh := rfl
@[simp] theorem complete_calhiV (o : OutcomeCode) (s : State) : (complete o s).calhiV = s.calhiV := rfl
@[simp] theorem complete_slope (o : OutcomeCode) (s : State) : (complete o s).slope = s.slope := rfl
@[simp] theorem complete_v7 (o : OutcomeCode) (s : State) : (complete o s).v7 = s.v7 := rfl
@[simp] theorem complete_thslope (o : OutcomeCode) (s : State) : (complete o s).thslope = s.thslope := rfl
@[simp] theorem complete_volts (o : OutcomeCode) (s : State) : (complete o s).volts = s.volts := rfl
@[simp] theorem complete_vinput (o : OutcomeCode) (s : State) : (complete o s).vinput = s.vinput := rfl
@[simp] theorem complete_ph (o : OutcomeCode) (s : State) : (complete o s).ph = s.ph := rfl
@[simp] theorem complete_phu (o : OutcomeCode) (s : State) : (complete o s).phu = s.phu := rfl
@[simp] theorem complete_selected (o : OutcomeCode) (s : State) : (complete o s).selected = s.selected := rfl
@[simp] theorem complete_devCfg (o : OutcomeCode) (s : State) : (complete o s).devCfg = s.devCfg := rfl
@[simp] theorem complete_devOpen (o : OutcomeCode) (s : State) : (complete o s).devOpen = s.devOpen := rfl
@[simp] theorem complete_devRun (o : OutcomeCode) (s : State) : (complete o s).devRun = s.devRun := rfl
@[simp] theorem complete_pins (o : OutcomeCode) (s : State) : (complete o s).pins = s.pins := rfl
@[simp] theorem complete_script (o : OutcomeCode) (s : State) : (complete o s).script = s.script := rfl
@[simp] theorem complete_edge (o : OutcomeCode) (s : State) : (complete o s).edge = s.edge := rfl
@[simp] theorem complete_hRdata (o : OutcomeCode) (s : State) : (complete o s).hRdata = s.hRdata := rfl

/-! raise -/

@[simp] theorem raise_st (e : ErrorKind) (s : State) : (raise e s).st = .idle := rfl
@[simp] theorem raise_dl (e : ErrorKind) (s : State) : (raise e s).dl = s.dl := rfl
@[simp] theorem raise_cmd (e : ErrorKind) (s : State) : (raise e s).cmd = s.cmd := rfl
@[simp] theorem raise_done (e : ErrorKind) (s : State) : (raise e s).done = true := rfl
@[simp] theorem raise_outcome (e : ErrorKind) (s : State) : (raise e s).outcome = e.outcome := rfl
@[simp] theorem raise_errstep (e : ErrorKind) (s : State) : (raise e s).errstep = e.errstep s.errstep := rfl
@[simp] theorem raise_calv (e : ErrorKind) (s : State) : (raise e s).calv = s.calv := rfl
@[simp] theorem raise_hosterr (e : ErrorKind) (s : State) : (raise e s).hosterr = s.hosterr := rfl
@[simp] theorem raise_addr (e : ErrorKind) (s : State) : (raise e s).addr = s.addr := rfl
@[simp] theorem raise_cfg (e : ErrorKind) (s : State) : (raise e s).cfg = s.cfg := rfl
@[simp] theorem raise_extref (e : ErrorKind) (s : State) : (raise e s).extref = s.extref := rfl
@[simp] theorem raise_maxwait (e : ErrorKind) (s : State) : (raise e s).maxwait = s.maxwait := rfl
@[simp] theorem raise_pollus (e : ErrorKind) (s : State) : (raise e s).pollus = s.pollus := rfl
@[simp] theorem raise_raw (e : ErrorKind) (s : State) : (raise e s).raw = s.raw := rfl
@[simp] theorem raise_elapsed (e : ErrorKind) (s : State) : (raise e s).elapsed = s.elapsed := rfl
@[simp] theorem raise_stshadow (e : ErrorKind) (s : State) : (raise e s).stshadow = s.stshadow := rfl
@[simp] theorem raise_fegain (e : ErrorKind) (s : State) : (raise e s).fegain = s.fegain := rfl
@[simp] theorem raise_calloPh (e : ErrorKind) (s : State) : (raise e s).calloPh = s.calloPh := rfl
@[simp] theorem raise_calloV (e : ErrorKind) (s : State) : (raise e s).calloV = s.calloV := rfl
@[simp] theorem raise_calhiPh (e : ErrorKind) (s : State) : (raise e s).calhiPh = s.calhiPh := rfl
@[simp] theorem raise_calhiV (e : ErrorKind) (s : State) : (raise e s).calhiV = s.calhiV := rfl
@[simp] theorem raise_slope (e : ErrorKind) (s : State) : (raise e s).slope = s.slope := rfl
@[simp] theorem raise_v7 (e : ErrorKind) (s : State) : (raise e s).v7 = s.v7 := rfl
@[simp] theorem raise_thslope (e : ErrorKind) (s : State) : (raise e s).thslope = s.thslope := rfl
@[simp] theorem raise_volts (e : ErrorKind) (s : State) : (raise e s).volts = s.volts := rfl
@[simp] theorem raise_vinput (e : ErrorKind) (s : State) : (raise e s).vinput = s.vinput := rfl
@[simp] theorem raise_ph (e : ErrorKind) (s : State) : (raise e s).ph = s.ph := rfl
@[simp] theorem raise_phu (e : ErrorKind) (s : State) : (raise e s).phu = s.phu := rfl
@[simp] theorem raise_selected (e : ErrorKind) (s : State) : (raise e s).selected = s.selected := rfl
@[simp] theorem raise_devCfg (e : ErrorKind) (s : State) : (raise e s).devCfg = s.devCfg := rfl
@[simp] theorem raise_devOpen (e : ErrorKind) (s : State) : (raise e s).devOpen = s.devOpen := rfl
@[simp] theorem raise_devRun (e : ErrorKind) (s : State) : (raise e s).devRun = s.devRun := rfl
@[simp] theorem raise_pins (e : ErrorKind) (s : State) : (raise e s).pins = s.pins := rfl
@[simp] theorem raise_script (e : ErrorKind) (s : State) : (raise e s).script = s.script := rfl
@[simp] theorem raise_edge (e : ErrorKind) (s : State) : (raise e s).edge = s.edge := rfl
@[simp] theorem raise_hRdata (e : ErrorKind) (s : State) : (raise e s).hRdata = s.hRdata := rfl

/-! acceptClear -/

@[simp] theorem acceptClear_st (op : HostOp) (s : State) : (acceptClear op s).st = s.st := rfl
@[simp] theorem acceptClear_dl (op : HostOp) (s : State) : (acceptClear op s).dl = s.dl := rfl
@[simp] theorem acceptClear_cmd (op : HostOp) (s : State) : (acceptClear op s).cmd = op.code := rfl
@[simp] theorem acceptClear_done (op : HostOp) (s : State) : (acceptClear op s).done = false := rfl
@[simp] theorem acceptClear_outcome (op : HostOp) (s : State) : (acceptClear op s).outcome = .none := rfl
@[simp] theorem acceptClear_errstep (op : HostOp) (s : State) : (acceptClear op s).errstep = .none := rfl
@[simp] theorem acceptClear_calv (op : HostOp) (s : State) : (acceptClear op s).calv = s.calv := rfl
@[simp] theorem acceptClear_hosterr (op : HostOp) (s : State) : (acceptClear op s).hosterr = s.hosterr := rfl
@[simp] theorem acceptClear_addr (op : HostOp) (s : State) : (acceptClear op s).addr = s.addr := rfl
@[simp] theorem acceptClear_cfg (op : HostOp) (s : State) : (acceptClear op s).cfg = s.cfg := rfl
@[simp] theorem acceptClear_extref (op : HostOp) (s : State) : (acceptClear op s).extref = s.extref := rfl
@[simp] theorem acceptClear_maxwait (op : HostOp) (s : State) : (acceptClear op s).maxwait = s.maxwait := rfl
@[simp] theorem acceptClear_pollus (op : HostOp) (s : State) : (acceptClear op s).pollus = s.pollus := rfl
@[simp] theorem acceptClear_raw (op : HostOp) (s : State) : (acceptClear op s).raw = s.raw := rfl
@[simp] theorem acceptClear_elapsed (op : HostOp) (s : State) : (acceptClear op s).elapsed = s.elapsed := rfl
@[simp] theorem acceptClear_stshadow (op : HostOp) (s : State) : (acceptClear op s).stshadow = s.stshadow := rfl
@[simp] theorem acceptClear_fegain (op : HostOp) (s : State) : (acceptClear op s).fegain = s.fegain := rfl
@[simp] theorem acceptClear_calloPh (op : HostOp) (s : State) : (acceptClear op s).calloPh = s.calloPh := rfl
@[simp] theorem acceptClear_calloV (op : HostOp) (s : State) : (acceptClear op s).calloV = s.calloV := rfl
@[simp] theorem acceptClear_calhiPh (op : HostOp) (s : State) : (acceptClear op s).calhiPh = s.calhiPh := rfl
@[simp] theorem acceptClear_calhiV (op : HostOp) (s : State) : (acceptClear op s).calhiV = s.calhiV := rfl
@[simp] theorem acceptClear_slope (op : HostOp) (s : State) : (acceptClear op s).slope = s.slope := rfl
@[simp] theorem acceptClear_v7 (op : HostOp) (s : State) : (acceptClear op s).v7 = s.v7 := rfl
@[simp] theorem acceptClear_thslope (op : HostOp) (s : State) : (acceptClear op s).thslope = s.thslope := rfl
@[simp] theorem acceptClear_volts (op : HostOp) (s : State) : (acceptClear op s).volts = s.volts := rfl
@[simp] theorem acceptClear_vinput (op : HostOp) (s : State) : (acceptClear op s).vinput = s.vinput := rfl
@[simp] theorem acceptClear_ph (op : HostOp) (s : State) : (acceptClear op s).ph = s.ph := rfl
@[simp] theorem acceptClear_phu (op : HostOp) (s : State) : (acceptClear op s).phu = s.phu := rfl
@[simp] theorem acceptClear_selected (op : HostOp) (s : State) : (acceptClear op s).selected = s.selected := rfl
@[simp] theorem acceptClear_devCfg (op : HostOp) (s : State) : (acceptClear op s).devCfg = s.devCfg := rfl
@[simp] theorem acceptClear_devOpen (op : HostOp) (s : State) : (acceptClear op s).devOpen = s.devOpen := rfl
@[simp] theorem acceptClear_devRun (op : HostOp) (s : State) : (acceptClear op s).devRun = s.devRun := rfl
@[simp] theorem acceptClear_pins (op : HostOp) (s : State) : (acceptClear op s).pins = s.pins := rfl
@[simp] theorem acceptClear_script (op : HostOp) (s : State) : (acceptClear op s).script = s.script := rfl
@[simp] theorem acceptClear_edge (op : HostOp) (s : State) : (acceptClear op s).edge = s.edge := rfl
@[simp] theorem acceptClear_hRdata (op : HostOp) (s : State) : (acceptClear op s).hRdata = s.hRdata := rfl

/-! accept -/

@[simp] theorem accept_st (op : HostOp) (s : State) : (accept op s).st = firstState op := rfl
@[simp] theorem accept_dl (op : HostOp) (s : State) : (accept op s).dl = s.dl := rfl
@[simp] theorem accept_cmd (op : HostOp) (s : State) : (accept op s).cmd = op.code := rfl
@[simp] theorem accept_done (op : HostOp) (s : State) : (accept op s).done = false := rfl
@[simp] theorem accept_outcome (op : HostOp) (s : State) : (accept op s).outcome = .none := rfl
@[simp] theorem accept_errstep (op : HostOp) (s : State) : (accept op s).errstep = .none := rfl
@[simp] theorem accept_calv (op : HostOp) (s : State) : (accept op s).calv = s.calv := rfl
@[simp] theorem accept_hosterr (op : HostOp) (s : State) : (accept op s).hosterr = s.hosterr := rfl
@[simp] theorem accept_addr (op : HostOp) (s : State) : (accept op s).addr = s.addr := rfl
@[simp] theorem accept_cfg (op : HostOp) (s : State) : (accept op s).cfg = s.cfg := rfl
@[simp] theorem accept_extref (op : HostOp) (s : State) : (accept op s).extref = s.extref := rfl
@[simp] theorem accept_maxwait (op : HostOp) (s : State) : (accept op s).maxwait = s.maxwait := rfl
@[simp] theorem accept_pollus (op : HostOp) (s : State) : (accept op s).pollus = s.pollus := rfl
@[simp] theorem accept_raw (op : HostOp) (s : State) : (accept op s).raw = s.raw := rfl
@[simp] theorem accept_elapsed (op : HostOp) (s : State) : (accept op s).elapsed = s.elapsed := rfl
@[simp] theorem accept_stshadow (op : HostOp) (s : State) : (accept op s).stshadow = s.stshadow := rfl
@[simp] theorem accept_fegain (op : HostOp) (s : State) : (accept op s).fegain = s.fegain := rfl
@[simp] theorem accept_calloPh (op : HostOp) (s : State) : (accept op s).calloPh = s.calloPh := rfl
@[simp] theorem accept_calloV (op : HostOp) (s : State) : (accept op s).calloV = s.calloV := rfl
@[simp] theorem accept_calhiPh (op : HostOp) (s : State) : (accept op s).calhiPh = s.calhiPh := rfl
@[simp] theorem accept_calhiV (op : HostOp) (s : State) : (accept op s).calhiV = s.calhiV := rfl
@[simp] theorem accept_slope (op : HostOp) (s : State) : (accept op s).slope = s.slope := rfl
@[simp] theorem accept_v7 (op : HostOp) (s : State) : (accept op s).v7 = s.v7 := rfl
@[simp] theorem accept_thslope (op : HostOp) (s : State) : (accept op s).thslope = s.thslope := rfl
@[simp] theorem accept_volts (op : HostOp) (s : State) : (accept op s).volts = s.volts := rfl
@[simp] theorem accept_vinput (op : HostOp) (s : State) : (accept op s).vinput = s.vinput := rfl
@[simp] theorem accept_ph (op : HostOp) (s : State) : (accept op s).ph = s.ph := rfl
@[simp] theorem accept_phu (op : HostOp) (s : State) : (accept op s).phu = s.phu := rfl
@[simp] theorem accept_selected (op : HostOp) (s : State) : (accept op s).selected = s.selected := rfl
@[simp] theorem accept_devCfg (op : HostOp) (s : State) : (accept op s).devCfg = s.devCfg := rfl
@[simp] theorem accept_devOpen (op : HostOp) (s : State) : (accept op s).devOpen = s.devOpen := rfl
@[simp] theorem accept_devRun (op : HostOp) (s : State) : (accept op s).devRun = s.devRun := rfl
@[simp] theorem accept_pins (op : HostOp) (s : State) : (accept op s).pins = s.pins := rfl
@[simp] theorem accept_script (op : HostOp) (s : State) : (accept op s).script = s.script := rfl
@[simp] theorem accept_edge (op : HostOp) (s : State) : (accept op s).edge = s.edge := rfl
@[simp] theorem accept_hRdata (op : HostOp) (s : State) : (accept op s).hRdata = s.hRdata := rfl

/-! latchRead -/

@[simp] theorem latchRead_st (n : BitVec 5) (t : State) (s : State) : (latchRead n t s).st = s.st := rfl
@[simp] theorem latchRead_dl (n : BitVec 5) (t : State) (s : State) : (latchRead n t s).dl = s.dl := rfl
@[simp] theorem latchRead_cmd (n : BitVec 5) (t : State) (s : State) : (latchRead n t s).cmd = s.cmd := rfl
@[simp] theorem latchRead_done (n : BitVec 5) (t : State) (s : State) : (latchRead n t s).done = s.done := rfl
@[simp] theorem latchRead_outcome (n : BitVec 5) (t : State) (s : State) : (latchRead n t s).outcome = s.outcome := rfl
@[simp] theorem latchRead_errstep (n : BitVec 5) (t : State) (s : State) : (latchRead n t s).errstep = s.errstep := rfl
@[simp] theorem latchRead_calv (n : BitVec 5) (t : State) (s : State) : (latchRead n t s).calv = s.calv := rfl
@[simp] theorem latchRead_hosterr (n : BitVec 5) (t : State) (s : State) : (latchRead n t s).hosterr = s.hosterr := rfl
@[simp] theorem latchRead_addr (n : BitVec 5) (t : State) (s : State) : (latchRead n t s).addr = s.addr := rfl
@[simp] theorem latchRead_cfg (n : BitVec 5) (t : State) (s : State) : (latchRead n t s).cfg = s.cfg := rfl
@[simp] theorem latchRead_extref (n : BitVec 5) (t : State) (s : State) : (latchRead n t s).extref = s.extref := rfl
@[simp] theorem latchRead_maxwait (n : BitVec 5) (t : State) (s : State) : (latchRead n t s).maxwait = s.maxwait := rfl
@[simp] theorem latchRead_pollus (n : BitVec 5) (t : State) (s : State) : (latchRead n t s).pollus = s.pollus := rfl
@[simp] theorem latchRead_raw (n : BitVec 5) (t : State) (s : State) : (latchRead n t s).raw = s.raw := rfl
@[simp] theorem latchRead_elapsed (n : BitVec 5) (t : State) (s : State) : (latchRead n t s).elapsed = s.elapsed := rfl
@[simp] theorem latchRead_stshadow (n : BitVec 5) (t : State) (s : State) : (latchRead n t s).stshadow = s.stshadow := rfl
@[simp] theorem latchRead_fegain (n : BitVec 5) (t : State) (s : State) : (latchRead n t s).fegain = s.fegain := rfl
@[simp] theorem latchRead_calloPh (n : BitVec 5) (t : State) (s : State) : (latchRead n t s).calloPh = s.calloPh := rfl
@[simp] theorem latchRead_calloV (n : BitVec 5) (t : State) (s : State) : (latchRead n t s).calloV = s.calloV := rfl
@[simp] theorem latchRead_calhiPh (n : BitVec 5) (t : State) (s : State) : (latchRead n t s).calhiPh = s.calhiPh := rfl
@[simp] theorem latchRead_calhiV (n : BitVec 5) (t : State) (s : State) : (latchRead n t s).calhiV = s.calhiV := rfl
@[simp] theorem latchRead_slope (n : BitVec 5) (t : State) (s : State) : (latchRead n t s).slope = s.slope := rfl
@[simp] theorem latchRead_v7 (n : BitVec 5) (t : State) (s : State) : (latchRead n t s).v7 = s.v7 := rfl
@[simp] theorem latchRead_thslope (n : BitVec 5) (t : State) (s : State) : (latchRead n t s).thslope = s.thslope := rfl
@[simp] theorem latchRead_volts (n : BitVec 5) (t : State) (s : State) : (latchRead n t s).volts = s.volts := rfl
@[simp] theorem latchRead_vinput (n : BitVec 5) (t : State) (s : State) : (latchRead n t s).vinput = s.vinput := rfl
@[simp] theorem latchRead_ph (n : BitVec 5) (t : State) (s : State) : (latchRead n t s).ph = s.ph := rfl
@[simp] theorem latchRead_phu (n : BitVec 5) (t : State) (s : State) : (latchRead n t s).phu = s.phu := rfl
@[simp] theorem latchRead_selected (n : BitVec 5) (t : State) (s : State) : (latchRead n t s).selected = s.selected := rfl
@[simp] theorem latchRead_devCfg (n : BitVec 5) (t : State) (s : State) : (latchRead n t s).devCfg = s.devCfg := rfl
@[simp] theorem latchRead_devOpen (n : BitVec 5) (t : State) (s : State) : (latchRead n t s).devOpen = s.devOpen := rfl
@[simp] theorem latchRead_devRun (n : BitVec 5) (t : State) (s : State) : (latchRead n t s).devRun = s.devRun := rfl
@[simp] theorem latchRead_pins (n : BitVec 5) (t : State) (s : State) : (latchRead n t s).pins = s.pins := rfl
@[simp] theorem latchRead_script (n : BitVec 5) (t : State) (s : State) : (latchRead n t s).script = s.script := rfl
@[simp] theorem latchRead_edge (n : BitVec 5) (t : State) (s : State) : (latchRead n t s).edge = s.edge := rfl
@[simp] theorem latchRead_hRdata (n : BitVec 5) (t : State) (s : State) : (latchRead n t s).hRdata = t.readReg n := rfl

/-! State.hostError -/

@[simp] theorem hostError_st (s : State) : (State.hostError s).st = s.st := rfl
@[simp] theorem hostError_dl (s : State) : (State.hostError s).dl = s.dl := rfl
@[simp] theorem hostError_cmd (s : State) : (State.hostError s).cmd = s.cmd := rfl
@[simp] theorem hostError_done (s : State) : (State.hostError s).done = s.done := rfl
@[simp] theorem hostError_outcome (s : State) : (State.hostError s).outcome = s.outcome := rfl
@[simp] theorem hostError_errstep (s : State) : (State.hostError s).errstep = s.errstep := rfl
@[simp] theorem hostError_calv (s : State) : (State.hostError s).calv = s.calv := rfl
@[simp] theorem hostError_hosterr (s : State) : (State.hostError s).hosterr = true := rfl
@[simp] theorem hostError_addr (s : State) : (State.hostError s).addr = s.addr := rfl
@[simp] theorem hostError_cfg (s : State) : (State.hostError s).cfg = s.cfg := rfl
@[simp] theorem hostError_extref (s : State) : (State.hostError s).extref = s.extref := rfl
@[simp] theorem hostError_maxwait (s : State) : (State.hostError s).maxwait = s.maxwait := rfl
@[simp] theorem hostError_pollus (s : State) : (State.hostError s).pollus = s.pollus := rfl
@[simp] theorem hostError_raw (s : State) : (State.hostError s).raw = s.raw := rfl
@[simp] theorem hostError_elapsed (s : State) : (State.hostError s).elapsed = s.elapsed := rfl
@[simp] theorem hostError_stshadow (s : State) : (State.hostError s).stshadow = s.stshadow := rfl
@[simp] theorem hostError_fegain (s : State) : (State.hostError s).fegain = s.fegain := rfl
@[simp] theorem hostError_calloPh (s : State) : (State.hostError s).calloPh = s.calloPh := rfl
@[simp] theorem hostError_calloV (s : State) : (State.hostError s).calloV = s.calloV := rfl
@[simp] theorem hostError_calhiPh (s : State) : (State.hostError s).calhiPh = s.calhiPh := rfl
@[simp] theorem hostError_calhiV (s : State) : (State.hostError s).calhiV = s.calhiV := rfl
@[simp] theorem hostError_slope (s : State) : (State.hostError s).slope = s.slope := rfl
@[simp] theorem hostError_v7 (s : State) : (State.hostError s).v7 = s.v7 := rfl
@[simp] theorem hostError_thslope (s : State) : (State.hostError s).thslope = s.thslope := rfl
@[simp] theorem hostError_volts (s : State) : (State.hostError s).volts = s.volts := rfl
@[simp] theorem hostError_vinput (s : State) : (State.hostError s).vinput = s.vinput := rfl
@[simp] theorem hostError_ph (s : State) : (State.hostError s).ph = s.ph := rfl
@[simp] theorem hostError_phu (s : State) : (State.hostError s).phu = s.phu := rfl
@[simp] theorem hostError_selected (s : State) : (State.hostError s).selected = s.selected := rfl
@[simp] theorem hostError_devCfg (s : State) : (State.hostError s).devCfg = s.devCfg := rfl
@[simp] theorem hostError_devOpen (s : State) : (State.hostError s).devOpen = s.devOpen := rfl
@[simp] theorem hostError_devRun (s : State) : (State.hostError s).devRun = s.devRun := rfl
@[simp] theorem hostError_pins (s : State) : (State.hostError s).pins = s.pins := rfl
@[simp] theorem hostError_script (s : State) : (State.hostError s).script = s.script := rfl
@[simp] theorem hostError_edge (s : State) : (State.hostError s).edge = s.edge := rfl
@[simp] theorem hostError_hRdata (s : State) : (State.hostError s).hRdata = s.hRdata := rfl

/-! State.writeStatus -/

@[simp] theorem writeStatus_st (d : Word) (s : State) : (State.writeStatus d s).st = s.st := rfl
@[simp] theorem writeStatus_dl (d : Word) (s : State) : (State.writeStatus d s).dl = s.dl := rfl
@[simp] theorem writeStatus_cmd (d : Word) (s : State) : (State.writeStatus d s).cmd = s.cmd := rfl
@[simp] theorem writeStatus_done (d : Word) (s : State) : (State.writeStatus d s).done = s.done := rfl
@[simp] theorem writeStatus_outcome (d : Word) (s : State) : (State.writeStatus d s).outcome = s.outcome := rfl
@[simp] theorem writeStatus_errstep (d : Word) (s : State) : (State.writeStatus d s).errstep = s.errstep := rfl
@[simp] theorem writeStatus_calv (d : Word) (s : State) : (State.writeStatus d s).calv = s.calv := rfl
@[simp] theorem writeStatus_hosterr (d : Word) (s : State) : (State.writeStatus d s).hosterr = (s.hosterr && !d.getLsbD 9) := rfl
@[simp] theorem writeStatus_addr (d : Word) (s : State) : (State.writeStatus d s).addr = s.addr := rfl
@[simp] theorem writeStatus_cfg (d : Word) (s : State) : (State.writeStatus d s).cfg = s.cfg := rfl
@[simp] theorem writeStatus_extref (d : Word) (s : State) : (State.writeStatus d s).extref = s.extref := rfl
@[simp] theorem writeStatus_maxwait (d : Word) (s : State) : (State.writeStatus d s).maxwait = s.maxwait := rfl
@[simp] theorem writeStatus_pollus (d : Word) (s : State) : (State.writeStatus d s).pollus = s.pollus := rfl
@[simp] theorem writeStatus_raw (d : Word) (s : State) : (State.writeStatus d s).raw = s.raw := rfl
@[simp] theorem writeStatus_elapsed (d : Word) (s : State) : (State.writeStatus d s).elapsed = s.elapsed := rfl
@[simp] theorem writeStatus_stshadow (d : Word) (s : State) : (State.writeStatus d s).stshadow = s.stshadow := rfl
@[simp] theorem writeStatus_fegain (d : Word) (s : State) : (State.writeStatus d s).fegain = s.fegain := rfl
@[simp] theorem writeStatus_calloPh (d : Word) (s : State) : (State.writeStatus d s).calloPh = s.calloPh := rfl
@[simp] theorem writeStatus_calloV (d : Word) (s : State) : (State.writeStatus d s).calloV = s.calloV := rfl
@[simp] theorem writeStatus_calhiPh (d : Word) (s : State) : (State.writeStatus d s).calhiPh = s.calhiPh := rfl
@[simp] theorem writeStatus_calhiV (d : Word) (s : State) : (State.writeStatus d s).calhiV = s.calhiV := rfl
@[simp] theorem writeStatus_slope (d : Word) (s : State) : (State.writeStatus d s).slope = s.slope := rfl
@[simp] theorem writeStatus_v7 (d : Word) (s : State) : (State.writeStatus d s).v7 = s.v7 := rfl
@[simp] theorem writeStatus_thslope (d : Word) (s : State) : (State.writeStatus d s).thslope = s.thslope := rfl
@[simp] theorem writeStatus_volts (d : Word) (s : State) : (State.writeStatus d s).volts = s.volts := rfl
@[simp] theorem writeStatus_vinput (d : Word) (s : State) : (State.writeStatus d s).vinput = s.vinput := rfl
@[simp] theorem writeStatus_ph (d : Word) (s : State) : (State.writeStatus d s).ph = s.ph := rfl
@[simp] theorem writeStatus_phu (d : Word) (s : State) : (State.writeStatus d s).phu = s.phu := rfl
@[simp] theorem writeStatus_selected (d : Word) (s : State) : (State.writeStatus d s).selected = s.selected := rfl
@[simp] theorem writeStatus_devCfg (d : Word) (s : State) : (State.writeStatus d s).devCfg = s.devCfg := rfl
@[simp] theorem writeStatus_devOpen (d : Word) (s : State) : (State.writeStatus d s).devOpen = s.devOpen := rfl
@[simp] theorem writeStatus_devRun (d : Word) (s : State) : (State.writeStatus d s).devRun = s.devRun := rfl
@[simp] theorem writeStatus_pins (d : Word) (s : State) : (State.writeStatus d s).pins = s.pins := rfl
@[simp] theorem writeStatus_script (d : Word) (s : State) : (State.writeStatus d s).script = s.script := rfl
@[simp] theorem writeStatus_edge (d : Word) (s : State) : (State.writeStatus d s).edge = s.edge := rfl
@[simp] theorem writeStatus_hRdata (d : Word) (s : State) : (State.writeStatus d s).hRdata = s.hRdata := rfl

/-! State.sampled -/

@[simp] theorem sampled_st (s : State) : (State.sampled s).st = s.st := rfl
@[simp] theorem sampled_dl (s : State) : (State.sampled s).dl = s.dl := rfl
@[simp] theorem sampled_cmd (s : State) : (State.sampled s).cmd = s.cmd := rfl
@[simp] theorem sampled_done (s : State) : (State.sampled s).done = s.done := rfl
@[simp] theorem sampled_outcome (s : State) : (State.sampled s).outcome = s.outcome := rfl
@[simp] theorem sampled_errstep (s : State) : (State.sampled s).errstep = s.errstep := rfl
@[simp] theorem sampled_calv (s : State) : (State.sampled s).calv = s.calv := rfl
@[simp] theorem sampled_hosterr (s : State) : (State.sampled s).hosterr = s.hosterr := rfl
@[simp] theorem sampled_addr (s : State) : (State.sampled s).addr = s.addr := rfl
@[simp] theorem sampled_cfg (s : State) : (State.sampled s).cfg = s.cfg := rfl
@[simp] theorem sampled_extref (s : State) : (State.sampled s).extref = s.extref := rfl
@[simp] theorem sampled_maxwait (s : State) : (State.sampled s).maxwait = s.maxwait := rfl
@[simp] theorem sampled_pollus (s : State) : (State.sampled s).pollus = s.pollus := rfl
@[simp] theorem sampled_raw (s : State) : (State.sampled s).raw = s.raw := rfl
@[simp] theorem sampled_elapsed (s : State) : (State.sampled s).elapsed = s.elapsed := rfl
@[simp] theorem sampled_stshadow (s : State) : (State.sampled s).stshadow = s.stshadow := rfl
@[simp] theorem sampled_fegain (s : State) : (State.sampled s).fegain = s.fegain := rfl
@[simp] theorem sampled_calloPh (s : State) : (State.sampled s).calloPh = s.calloPh := rfl
@[simp] theorem sampled_calloV (s : State) : (State.sampled s).calloV = s.calloV := rfl
@[simp] theorem sampled_calhiPh (s : State) : (State.sampled s).calhiPh = s.calhiPh := rfl
@[simp] theorem sampled_calhiV (s : State) : (State.sampled s).calhiV = s.calhiV := rfl
@[simp] theorem sampled_slope (s : State) : (State.sampled s).slope = s.slope := rfl
@[simp] theorem sampled_v7 (s : State) : (State.sampled s).v7 = s.v7 := rfl
@[simp] theorem sampled_thslope (s : State) : (State.sampled s).thslope = s.thslope := rfl
@[simp] theorem sampled_volts (s : State) : (State.sampled s).volts = s.volts := rfl
@[simp] theorem sampled_vinput (s : State) : (State.sampled s).vinput = s.vinput := rfl
@[simp] theorem sampled_ph (s : State) : (State.sampled s).ph = s.ph := rfl
@[simp] theorem sampled_phu (s : State) : (State.sampled s).phu = s.phu := rfl
@[simp] theorem sampled_selected (s : State) : (State.sampled s).selected = s.selected := rfl
@[simp] theorem sampled_devCfg (s : State) : (State.sampled s).devCfg = s.devCfg := rfl
@[simp] theorem sampled_devOpen (s : State) : (State.sampled s).devOpen = s.devOpen := rfl
@[simp] theorem sampled_devRun (s : State) : (State.sampled s).devRun = s.devRun := rfl
@[simp] theorem sampled_pins (s : State) : (State.sampled s).pins = s.nextCycle.pins := rfl
@[simp] theorem sampled_script (s : State) : (State.sampled s).script = s.script.tail := rfl
@[simp] theorem sampled_edge (s : State) : (State.sampled s).edge = s.edge + 1 := rfl
@[simp] theorem sampled_hRdata (s : State) : (State.sampled s).hRdata = s.hRdata := rfl

end Sys2Proof.Machine
end

