-- ==== Sys2Proof/Laws/Ops.lean ====
section
/-! SUPPORT. What the shared operations can do: the end of a transaction touches the four environment fields only, and
keeps the sparse memories in form; the request port per FSM state; the sequencer per FSM state. -/

namespace Sys2Proof.Machine

/-! The environment operations leave the block alone -/

/-- A transaction's end touches `selected`, `devCfg`, `devOpen` and `devRun` only. -/
theorem transactionEnd_frame (r : TReq) (err : Bool) (d : Half) (s : State) :
    ∃ sel c o u, transactionEnd r err d s = { s with selected := sel, devCfg := c, devOpen := o, devRun := u } := by
  rcases r with ⟨op, a, b⟩
  cases err <;> cases op <;>
    simp only [transactionEnd, transactionFailed, transactionOk, startDevice, forgetDevice, configureDevice,
      learnConfig, Bool.false_eq_true, if_true, if_false] <;>
    (repeat' split) <;> exact ⟨_, _, _, _, rfl⟩

/-- What `served` can do: the environment fields only. -/
theorem served_frame (p : Pins) (s : State) :
    ∃ sel c o u, served p s = { s with selected := sel, devCfg := c, devOpen := o, devRun := u } := by
  unfold served
  split
  · exact transactionEnd_frame _ _ _ s
  · exact ⟨_, _, _, _, rfl⟩

/-- What a transaction's end does behind the port depends on what is behind the port and on the edge only: two states
that agree on those get the same there. -/
theorem transactionEnd_congr (r : TReq) (err : Bool) (d : Half) (s s' : State) (hs : s'.selected = s.selected)
    (hc : s'.devCfg = s.devCfg) (ho : s'.devOpen = s.devOpen) (hr : s'.devRun = s.devRun) (he : s'.edge = s.edge) :
    transactionEnd r err d s' =
      { s' with
        selected := (transactionEnd r err d s).selected
        devCfg := (transactionEnd r err d s).devCfg
        devOpen := (transactionEnd r err d s).devOpen
        devRun := (transactionEnd r err d s).devRun } := by
  have ht : s'.target = s.target := by unfold State.target; rw [hs, he]
  have hq : s'.configOpen s.target.toNat = s.configOpen s.target.toNat := by unfold State.configOpen; rw [ho]
  have hv : s'.deviceConfig s.target.toNat = s.deviceConfig s.target.toNat := by
    unfold State.deviceConfig; rw [ho, hc]
  rcases r with ⟨op, a, b⟩
  cases err <;> cases op <;>
    simp only [transactionEnd, transactionFailed, transactionOk, learnConfig, configureDevice, forgetDevice,
      startDevice, ht, hq, hv, hs, hc, ho, hr, he, Bool.false_eq_true, if_true, if_false] <;>
    (repeat' split) <;> first | rfl | simp only [← hs, ← hc, ← ho, ← hr, ← he]

@[simp] theorem transactionEnd_st (r : TReq) (err : Bool) (d : Half) (s : State) : (transactionEnd r err d s).st = s.st := by
  obtain ⟨_, _, _, _, h⟩ := transactionEnd_frame r err d s; rw [h]
@[simp] theorem transactionEnd_dl (r : TReq) (err : Bool) (d : Half) (s : State) : (transactionEnd r err d s).dl = s.dl := by
  obtain ⟨_, _, _, _, h⟩ := transactionEnd_frame r err d s; rw [h]
@[simp] theorem transactionEnd_cmd (r : TReq) (err : Bool) (d : Half) (s : State) : (transactionEnd r err d s).cmd = s.cmd := by
  obtain ⟨_, _, _, _, h⟩ := transactionEnd_frame r err d s; rw [h]
@[simp] theorem transactionEnd_done (r : TReq) (err : Bool) (d : Half) (s : State) : (transactionEnd r err d s).done = s.done := by
  obtain ⟨_, _, _, _, h⟩ := transactionEnd_frame r err d s; rw [h]
@[simp] theorem transactionEnd_outcome (r : TReq) (err : Bool) (d : Half) (s : State) : (transactionEnd r err d s).outcome = s.outcome := by
  obtain ⟨_, _, _, _, h⟩ := transactionEnd_frame r err d s; rw [h]
@[simp] theorem transactionEnd_errstep (r : TReq) (err : Bool) (d : Half) (s : State) : (transactionEnd r err d s).errstep = s.errstep := by
  obtain ⟨_, _, _, _, h⟩ := transactionEnd_frame r err d s; rw [h]
@[simp] theorem transactionEnd_calv (r : TReq) (err : Bool) (d : Half) (s : State) : (transactionEnd r err d s).calv = s.calv := by
  obtain ⟨_, _, _, _, h⟩ := transactionEnd_frame r err d s; rw [h]
@[simp] theorem transactionEnd_hosterr (r : TReq) (err : Bool) (d : Half) (s : State) : (transactionEnd r err d s).hosterr = s.hosterr := by
  obtain ⟨_, _, _, _, h⟩ := transactionEnd_frame r err d s; rw [h]
@[simp] theorem transactionEnd_addr (r : TReq) (err : Bool) (d : Half) (s : State) : (transactionEnd r err d s).addr = s.addr := by
  obtain ⟨_, _, _, _, h⟩ := transactionEnd_frame r err d s; rw [h]
@[simp] theorem transactionEnd_cfg (r : TReq) (err : Bool) (d : Half) (s : State) : (transactionEnd r err d s).cfg = s.cfg := by
  obtain ⟨_, _, _, _, h⟩ := transactionEnd_frame r err d s; rw [h]
@[simp] theorem transactionEnd_extref (r : TReq) (err : Bool) (d : Half) (s : State) : (transactionEnd r err d s).extref = s.extref := by
  obtain ⟨_, _, _, _, h⟩ := transactionEnd_frame r err d s; rw [h]
@[simp] theorem transactionEnd_maxwait (r : TReq) (err : Bool) (d : Half) (s : State) : (transactionEnd r err d s).maxwait = s.maxwait := by
  obtain ⟨_, _, _, _, h⟩ := transactionEnd_frame r err d s; rw [h]
@[simp] theorem transactionEnd_pollus (r : TReq) (err : Bool) (d : Half) (s : State) : (transactionEnd r err d s).pollus = s.pollus := by
  obtain ⟨_, _, _, _, h⟩ := transactionEnd_frame r err d s; rw [h]
@[simp] theorem transactionEnd_raw (r : TReq) (err : Bool) (d : Half) (s : State) : (transactionEnd r err d s).raw = s.raw := by
  obtain ⟨_, _, _, _, h⟩ := transactionEnd_frame r err d s; rw [h]
@[simp] theorem transactionEnd_elapsed (r : TReq) (err : Bool) (d : Half) (s : State) : (transactionEnd r err d s).elapsed = s.elapsed := by
  obtain ⟨_, _, _, _, h⟩ := transactionEnd_frame r err d s; rw [h]
@[simp] theorem transactionEnd_stshadow (r : TReq) (err : Bool) (d : Half) (s : State) : (transactionEnd r err d s).stshadow = s.stshadow := by
  obtain ⟨_, _, _, _, h⟩ := transactionEnd_frame r err d s; rw [h]
@[simp] theorem transactionEnd_fegain (r : TReq) (err : Bool) (d : Half) (s : State) : (transactionEnd r err d s).fegain = s.fegain := by
  obtain ⟨_, _, _, _, h⟩ := transactionEnd_frame r err d s; rw [h]
@[simp] theorem transactionEnd_calloPh (r : TReq) (err : Bool) (d : Half) (s : State) : (transactionEnd r err d s).calloPh = s.calloPh := by
  obtain ⟨_, _, _, _, h⟩ := transactionEnd_frame r err d s; rw [h]
@[simp] theorem transactionEnd_calloV (r : TReq) (err : Bool) (d : Half) (s : State) : (transactionEnd r err d s).calloV = s.calloV := by
  obtain ⟨_, _, _, _, h⟩ := transactionEnd_frame r err d s; rw [h]
@[simp] theorem transactionEnd_calhiPh (r : TReq) (err : Bool) (d : Half) (s : State) : (transactionEnd r err d s).calhiPh = s.calhiPh := by
  obtain ⟨_, _, _, _, h⟩ := transactionEnd_frame r err d s; rw [h]
@[simp] theorem transactionEnd_calhiV (r : TReq) (err : Bool) (d : Half) (s : State) : (transactionEnd r err d s).calhiV = s.calhiV := by
  obtain ⟨_, _, _, _, h⟩ := transactionEnd_frame r err d s; rw [h]
@[simp] theorem transactionEnd_slope (r : TReq) (err : Bool) (d : Half) (s : State) : (transactionEnd r err d s).slope = s.slope := by
  obtain ⟨_, _, _, _, h⟩ := transactionEnd_frame r err d s; rw [h]
@[simp] theorem transactionEnd_v7 (r : TReq) (err : Bool) (d : Half) (s : State) : (transactionEnd r err d s).v7 = s.v7 := by
  obtain ⟨_, _, _, _, h⟩ := transactionEnd_frame r err d s; rw [h]
@[simp] theorem transactionEnd_thslope (r : TReq) (err : Bool) (d : Half) (s : State) : (transactionEnd r err d s).thslope = s.thslope := by
  obtain ⟨_, _, _, _, h⟩ := transactionEnd_frame r err d s; rw [h]
@[simp] theorem transactionEnd_volts (r : TReq) (err : Bool) (d : Half) (s : State) : (transactionEnd r err d s).volts = s.volts := by
  obtain ⟨_, _, _, _, h⟩ := transactionEnd_frame r err d s; rw [h]
@[simp] theorem transactionEnd_vinput (r : TReq) (err : Bool) (d : Half) (s : State) : (transactionEnd r err d s).vinput = s.vinput := by
  obtain ⟨_, _, _, _, h⟩ := transactionEnd_frame r err d s; rw [h]
@[simp] theorem transactionEnd_ph (r : TReq) (err : Bool) (d : Half) (s : State) : (transactionEnd r err d s).ph = s.ph := by
  obtain ⟨_, _, _, _, h⟩ := transactionEnd_frame r err d s; rw [h]
@[simp] theorem transactionEnd_phu (r : TReq) (err : Bool) (d : Half) (s : State) : (transactionEnd r err d s).phu = s.phu := by
  obtain ⟨_, _, _, _, h⟩ := transactionEnd_frame r err d s; rw [h]
@[simp] theorem transactionEnd_pins (r : TReq) (err : Bool) (d : Half) (s : State) : (transactionEnd r err d s).pins = s.pins := by
  obtain ⟨_, _, _, _, h⟩ := transactionEnd_frame r err d s; rw [h]
@[simp] theorem transactionEnd_script (r : TReq) (err : Bool) (d : Half) (s : State) : (transactionEnd r err d s).script = s.script := by
  obtain ⟨_, _, _, _, h⟩ := transactionEnd_frame r err d s; rw [h]
@[simp] theorem transactionEnd_edge (r : TReq) (err : Bool) (d : Half) (s : State) : (transactionEnd r err d s).edge = s.edge := by
  obtain ⟨_, _, _, _, h⟩ := transactionEnd_frame r err d s; rw [h]
@[simp] theorem transactionEnd_hRdata (r : TReq) (err : Bool) (d : Half) (s : State) : (transactionEnd r err d s).hRdata = s.hRdata := by
  obtain ⟨_, _, _, _, h⟩ := transactionEnd_frame r err d s; rw [h]

@[simp] theorem served_st (p : Pins) (s : State) : (served p s).st = s.st := by
  obtain ⟨_, _, _, _, h⟩ := served_frame p s; rw [h]
@[simp] theorem served_dl (p : Pins) (s : State) : (served p s).dl = s.dl := by
  obtain ⟨_, _, _, _, h⟩ := served_frame p s; rw [h]
@[simp] theorem served_cmd (p : Pins) (s : State) : (served p s).cmd = s.cmd := by
  obtain ⟨_, _, _, _, h⟩ := served_frame p s; rw [h]
@[simp] theorem served_done (p : Pins) (s : State) : (served p s).done = s.done := by
  obtain ⟨_, _, _, _, h⟩ := served_frame p s; rw [h]
@[simp] theorem served_outcome (p : Pins) (s : State) : (served p s).outcome = s.outcome := by
  obtain ⟨_, _, _, _, h⟩ := served_frame p s; rw [h]
@[simp] theorem served_errstep (p : Pins) (s : State) : (served p s).errstep = s.errstep := by
  obtain ⟨_, _, _, _, h⟩ := served_frame p s; rw [h]
@[simp] theorem served_calv (p : Pins) (s : State) : (served p s).calv = s.calv := by
  obtain ⟨_, _, _, _, h⟩ := served_frame p s; rw [h]
@[simp] theorem served_hosterr (p : Pins) (s : State) : (served p s).hosterr = s.hosterr := by
  obtain ⟨_, _, _, _, h⟩ := served_frame p s; rw [h]
@[simp] theorem served_addr (p : Pins) (s : State) : (served p s).addr = s.addr := by
  obtain ⟨_, _, _, _, h⟩ := served_frame p s; rw [h]
@[simp] theorem served_cfg (p : Pins) (s : State) : (served p s).cfg = s.cfg := by
  obtain ⟨_, _, _, _, h⟩ := served_frame p s; rw [h]
@[simp] theorem served_extref (p : Pins) (s : State) : (served p s).extref = s.extref := by
  obtain ⟨_, _, _, _, h⟩ := served_frame p s; rw [h]
@[simp] theorem served_maxwait (p : Pins) (s : State) : (served p s).maxwait = s.maxwait := by
  obtain ⟨_, _, _, _, h⟩ := served_frame p s; rw [h]
@[simp] theorem served_pollus (p : Pins) (s : State) : (served p s).pollus = s.pollus := by
  obtain ⟨_, _, _, _, h⟩ := served_frame p s; rw [h]
@[simp] theorem served_raw (p : Pins) (s : State) : (served p s).raw = s.raw := by
  obtain ⟨_, _, _, _, h⟩ := served_frame p s; rw [h]
@[simp] theorem served_elapsed (p : Pins) (s : State) : (served p s).elapsed = s.elapsed := by
  obtain ⟨_, _, _, _, h⟩ := served_frame p s; rw [h]
@[simp] theorem served_stshadow (p : Pins) (s : State) : (served p s).stshadow = s.stshadow := by
  obtain ⟨_, _, _, _, h⟩ := served_frame p s; rw [h]
@[simp] theorem served_fegain (p : Pins) (s : State) : (served p s).fegain = s.fegain := by
  obtain ⟨_, _, _, _, h⟩ := served_frame p s; rw [h]
@[simp] theorem served_calloPh (p : Pins) (s : State) : (served p s).calloPh = s.calloPh := by
  obtain ⟨_, _, _, _, h⟩ := served_frame p s; rw [h]
@[simp] theorem served_calloV (p : Pins) (s : State) : (served p s).calloV = s.calloV := by
  obtain ⟨_, _, _, _, h⟩ := served_frame p s; rw [h]
@[simp] theorem served_calhiPh (p : Pins) (s : State) : (served p s).calhiPh = s.calhiPh := by
  obtain ⟨_, _, _, _, h⟩ := served_frame p s; rw [h]
@[simp] theorem served_calhiV (p : Pins) (s : State) : (served p s).calhiV = s.calhiV := by
  obtain ⟨_, _, _, _, h⟩ := served_frame p s; rw [h]
@[simp] theorem served_slope (p : Pins) (s : State) : (served p s).slope = s.slope := by
  obtain ⟨_, _, _, _, h⟩ := served_frame p s; rw [h]
@[simp] theorem served_v7 (p : Pins) (s : State) : (served p s).v7 = s.v7 := by
  obtain ⟨_, _, _, _, h⟩ := served_frame p s; rw [h]
@[simp] theorem served_thslope (p : Pins) (s : State) : (served p s).thslope = s.thslope := by
  obtain ⟨_, _, _, _, h⟩ := served_frame p s; rw [h]
@[simp] theorem served_volts (p : Pins) (s : State) : (served p s).volts = s.volts := by
  obtain ⟨_, _, _, _, h⟩ := served_frame p s; rw [h]
@[simp] theorem served_vinput (p : Pins) (s : State) : (served p s).vinput = s.vinput := by
  obtain ⟨_, _, _, _, h⟩ := served_frame p s; rw [h]
@[simp] theorem served_ph (p : Pins) (s : State) : (served p s).ph = s.ph := by
  obtain ⟨_, _, _, _, h⟩ := served_frame p s; rw [h]
@[simp] theorem served_phu (p : Pins) (s : State) : (served p s).phu = s.phu := by
  obtain ⟨_, _, _, _, h⟩ := served_frame p s; rw [h]
@[simp] theorem served_pins (p : Pins) (s : State) : (served p s).pins = s.pins := by
  obtain ⟨_, _, _, _, h⟩ := served_frame p s; rw [h]
@[simp] theorem served_script (p : Pins) (s : State) : (served p s).script = s.script := by
  obtain ⟨_, _, _, _, h⟩ := served_frame p s; rw [h]
@[simp] theorem served_edge (p : Pins) (s : State) : (served p s).edge = s.edge := by
  obtain ⟨_, _, _, _, h⟩ := served_frame p s; rw [h]
@[simp] theorem served_hRdata (p : Pins) (s : State) : (served p s).hRdata = s.hRdata := by
  obtain ⟨_, _, _, _, h⟩ := served_frame p s; rw [h]

/-! The sparse memories keep their form -/

/-- The form is a matter of the three memories. -/
theorem MemoryForm.of_eq {s t : State} (h : MemoryForm s) (hc : t.devCfg = s.devCfg) (ho : t.devOpen = s.devOpen)
    (hr : t.devRun = s.devRun) : MemoryForm t where
  cfg := hc ▸ h.cfg
  written := hc ▸ h.written
  opened := ho ▸ h.opened
  apart a ha := by
    rw [hc]
    exact h.apart a (by unfold State.configOpen at *; rwa [ho] at ha)
  run := hr ▸ h.run

theorem forgetDevice_memoryForm (s : State) (h : MemoryForm s) : MemoryForm (forgetDevice s) where
  cfg := Memory.wf_erase _ _ h.cfg
  written c hc := h.written c (Memory.mem_erase _ _ c hc)
  opened := Memory.wf_write _ _ _ (BitVec.isLt _) h.opened
  apart a ha := by
    simp only [forgetDevice, State.configOpen, Memory.read_write, Memory.read_erase] at ha ⊢
    split at ha
    · simp [*]
    · rw [h.apart a ha, ite_self]
  run := Memory.wf_set _ _ _ (BitVec.isLt _) h.run

theorem configureDevice_memoryForm (b : Byte) (s : State) (h : MemoryForm s) :
    MemoryForm (configureDevice b s) where
  cfg := Memory.wf_set _ _ _ (BitVec.isLt _) h.cfg
  written c hc := Memory.mem_keep _ _ _ c hc h.written
  opened := Memory.wf_erase _ _ h.opened
  apart a ha := by
    simp only [configureDevice, State.configOpen, Memory.keep, Memory.read_set, Memory.read_erase] at ha ⊢
    split at ha
    · simp at ha
    · rename_i hne
      rw [if_neg hne, h.apart a ha]
  run := h.run

theorem learnConfig_memoryForm (b : Byte) (s : State) (h : MemoryForm s) : MemoryForm (learnConfig b s) := by
  unfold learnConfig
  split
  · exact configureDevice_memoryForm b s h
  · exact h

theorem startDevice_memoryForm (s : State) (h : MemoryForm s) : MemoryForm (startDevice s) where
  cfg := h.cfg
  written := h.written
  opened := h.opened
  apart := h.apart
  run := Memory.wf_write _ _ _ (BitVec.isLt _) h.run

/-- The end of a transaction keeps the sparse memories in form. -/
theorem transactionEnd_memoryForm (r : TReq) (err : Bool) (d : Half) (s : State) (h : MemoryForm s) :
    MemoryForm (transactionEnd r err d s) := by
  rcases r with ⟨op, a, b⟩
  have hf := forgetDevice_memoryForm s h
  have hs := startDevice_memoryForm s h
  have hc := configureDevice_memoryForm b s h
  have hl := learnConfig_memoryForm (d.extractLsb' 0 8) s h
  cases err <;> cases op <;>
    simp only [transactionEnd, transactionFailed, transactionOk, Bool.false_eq_true, if_true, if_false] <;>
    (repeat' split) <;> first | assumption | exact h.of_eq rfl rfl rfl

/-- The end of the block's own transaction keeps the sparse memories in form. -/
theorem served_memoryForm (p : Pins) (s : State) (h : MemoryForm s) : MemoryForm (served p s) := by
  unfold served
  split
  · exact transactionEnd_memoryForm _ _ _ s h
  · exact h

/-- A reset edge keeps the sparse memories in form. -/
theorem withdrawn_memoryForm (w : PortWord) (s : State) (h : MemoryForm s) : MemoryForm (withdrawn w s) := by
  unfold withdrawn
  split
  · exact forgetDevice_memoryForm s h
  · exact h

theorem reset_memoryForm : MemoryForm State.reset where
  cfg := Memory.wf_nil
  written _ h := by cases h
  opened := Memory.wf_nil
  apart _ _ := rfl
  run := Memory.wf_nil

/-! The sequencer, per FSM state -/

theorem sequencer_idle (p : Pins) (s : State) (h : s.st = .idle) : sequencer p s = s := by
  unfold sequencer; rw [h]

theorem sequencer_tSel (p : Pins) (s : State) (h : s.st = .tSel) : sequencer p s = edgeTSel p s := by
  unfold sequencer; rw [h]

theorem sequencer_tRst (p : Pins) (s : State) (h : s.st = .tRst) : sequencer p s = edgeTRst p s := by
  unfold sequencer; rw [h]

theorem sequencer_tCfg (p : Pins) (s : State) (h : s.st = .tCfg) : sequencer p s = edgeTCfg p s := by
  unfold sequencer; rw [h]

theorem sequencer_tStart (p : Pins) (s : State) (h : s.st = .tStart) : sequencer p s = edgeTStart p s := by
  unfold sequencer; rw [h]

theorem sequencer_tPoll (p : Pins) (s : State) (h : s.st = .tPoll) : sequencer p s = edgeTPoll p s := by
  unfold sequencer; rw [h]

theorem sequencer_wDelay (p : Pins) (s : State) (h : s.st = .wDelay) : sequencer p s = edgeWDelay p s := by
  unfold sequencer; rw [h]

theorem sequencer_tRead (p : Pins) (s : State) (h : s.st = .tRead) : sequencer p s = edgeTRead p s := by
  unfold sequencer; rw [h]

theorem sequencer_scExec (p : Pins) (s : State) (h : s.st = .scExec) : sequencer p s = scExec s := by
  unfold sequencer; rw [h]

/-! What the sequencer never touches: CMD, HOSTERR, the operand registers and the inputs (R234) -/

@[simp] theorem countTick_cmd (p : Pins) (s : State) : (countTick p s).cmd = s.cmd := by
  unfold countTick; split <;> rfl

@[simp] theorem statusRead_cmd (b : Byte) (e : Word) (s : State) : (statusRead b e s).cmd = s.cmd := by
  simp only [statusRead, notReady, goOn]; repeat' split
  all_goals simp

@[simp] theorem scExec_cmd (s : State) : (scExec s).cmd = s.cmd := by
  simp only [scExec, completeCode2v, completeV2in, completeDcal, completeV2ph, completeV2phu]; repeat' split
  all_goals simp

@[simp] theorem sequencer_cmd (p : Pins) (s : State) : (sequencer p s).cmd = s.cmd := by
  simp only [sequencer, edgeTSel, edgeTRst, edgeTCfg, edgeTStart, edgeTPoll, edgeWDelay, edgeTRead, goOn]
  repeat' split
  all_goals simp

@[simp] theorem countTick_hosterr (p : Pins) (s : State) : (countTick p s).hosterr = s.hosterr := by
  unfold countTick; split <;> rfl

@[simp] theorem statusRead_hosterr (b : Byte) (e : Word) (s : State) : (statusRead b e s).hosterr = s.hosterr := by
  simp only [statusRead, notReady, goOn]; repeat' split
  all_goals simp

@[simp] theorem scExec_hosterr (s : State) : (scExec s).hosterr = s.hosterr := by
  simp only [scExec, completeCode2v, completeV2in, completeDcal, completeV2ph, completeV2phu]; repeat' split
  all_goals simp

@[simp] theorem sequencer_hosterr (p : Pins) (s : State) : (sequencer p s).hosterr = s.hosterr := by
  simp only [sequencer, edgeTSel, edgeTRst, edgeTCfg, edgeTStart, edgeTPoll, edgeWDelay, edgeTRead, goOn]
  repeat' split
  all_goals simp

@[simp] theorem countTick_addr (p : Pins) (s : State) : (countTick p s).addr = s.addr := by
  unfold countTick; split <;> rfl

@[simp] theorem statusRead_addr (b : Byte) (e : Word) (s : State) : (statusRead b e s).addr = s.addr := by
  simp only [statusRead, notReady, goOn]; repeat' split
  all_goals simp

@[simp] theorem scExec_addr (s : State) : (scExec s).addr = s.addr := by
  simp only [scExec, completeCode2v, completeV2in, completeDcal, completeV2ph, completeV2phu]; repeat' split
  all_goals simp

@[simp] theorem sequencer_addr (p : Pins) (s : State) : (sequencer p s).addr = s.addr := by
  simp only [sequencer, edgeTSel, edgeTRst, edgeTCfg, edgeTStart, edgeTPoll, edgeWDelay, edgeTRead, goOn]
  repeat' split
  all_goals simp

@[simp] theorem countTick_cfg (p : Pins) (s : State) : (countTick p s).cfg = s.cfg := by
  unfold countTick; split <;> rfl

@[simp] theorem statusRead_cfg (b : Byte) (e : Word) (s : State) : (statusRead b e s).cfg = s.cfg := by
  simp only [statusRead, notReady, goOn]; repeat' split
  all_goals simp

@[simp] theorem scExec_cfg (s : State) : (scExec s).cfg = s.cfg := by
  simp only [scExec, completeCode2v, completeV2in, completeDcal, completeV2ph, completeV2phu]; repeat' split
  all_goals simp

@[simp] theorem sequencer_cfg (p : Pins) (s : State) : (sequencer p s).cfg = s.cfg := by
  simp only [sequencer, edgeTSel, edgeTRst, edgeTCfg, edgeTStart, edgeTPoll, edgeWDelay, edgeTRead, goOn]
  repeat' split
  all_goals simp

@[simp] theorem countTick_extref (p : Pins) (s : State) : (countTick p s).extref = s.extref := by
  unfold countTick; split <;> rfl

@[simp] theorem statusRead_extref (b : Byte) (e : Word) (s : State) : (statusRead b e s).extref = s.extref := by
  simp only [statusRead, notReady, goOn]; repeat' split
  all_goals simp

@[simp] theorem scExec_extref (s : State) : (scExec s).extref = s.extref := by
  simp only [scExec, completeCode2v, completeV2in, completeDcal, completeV2ph, completeV2phu]; repeat' split
  all_goals simp

@[simp] theorem sequencer_extref (p : Pins) (s : State) : (sequencer p s).extref = s.extref := by
  simp only [sequencer, edgeTSel, edgeTRst, edgeTCfg, edgeTStart, edgeTPoll, edgeWDelay, edgeTRead, goOn]
  repeat' split
  all_goals simp

@[simp] theorem countTick_maxwait (p : Pins) (s : State) : (countTick p s).maxwait = s.maxwait := by
  unfold countTick; split <;> rfl

@[simp] theorem statusRead_maxwait (b : Byte) (e : Word) (s : State) : (statusRead b e s).maxwait = s.maxwait := by
  simp only [statusRead, notReady, goOn]; repeat' split
  all_goals simp

@[simp] theorem scExec_maxwait (s : State) : (scExec s).maxwait = s.maxwait := by
  simp only [scExec, completeCode2v, completeV2in, completeDcal, completeV2ph, completeV2phu]; repeat' split
  all_goals simp

@[simp] theorem sequencer_maxwait (p : Pins) (s : State) : (sequencer p s).maxwait = s.maxwait := by
  simp only [sequencer, edgeTSel, edgeTRst, edgeTCfg, edgeTStart, edgeTPoll, edgeWDelay, edgeTRead, goOn]
  repeat' split
  all_goals simp

@[simp] theorem countTick_pollus (p : Pins) (s : State) : (countTick p s).pollus = s.pollus := by
  unfold countTick; split <;> rfl

@[simp] theorem statusRead_pollus (b : Byte) (e : Word) (s : State) : (statusRead b e s).pollus = s.pollus := by
  simp only [statusRead, notReady, goOn]; repeat' split
  all_goals simp

@[simp] theorem scExec_pollus (s : State) : (scExec s).pollus = s.pollus := by
  simp only [scExec, completeCode2v, completeV2in, completeDcal, completeV2ph, completeV2phu]; repeat' split
  all_goals simp

@[simp] theorem sequencer_pollus (p : Pins) (s : State) : (sequencer p s).pollus = s.pollus := by
  simp only [sequencer, edgeTSel, edgeTRst, edgeTCfg, edgeTStart, edgeTPoll, edgeWDelay, edgeTRead, goOn]
  repeat' split
  all_goals simp

@[simp] theorem countTick_fegain (p : Pins) (s : State) : (countTick p s).fegain = s.fegain := by
  unfold countTick; split <;> rfl

@[simp] theorem statusRead_fegain (b : Byte) (e : Word) (s : State) : (statusRead b e s).fegain = s.fegain := by
  simp only [statusRead, notReady, goOn]; repeat' split
  all_goals simp

@[simp] theorem scExec_fegain (s : State) : (scExec s).fegain = s.fegain := by
  simp only [scExec, completeCode2v, completeV2in, completeDcal, completeV2ph, completeV2phu]; repeat' split
  all_goals simp

@[simp] theorem sequencer_fegain (p : Pins) (s : State) : (sequencer p s).fegain = s.fegain := by
  simp only [sequencer, edgeTSel, edgeTRst, edgeTCfg, edgeTStart, edgeTPoll, edgeWDelay, edgeTRead, goOn]
  repeat' split
  all_goals simp

@[simp] theorem countTick_calloPh (p : Pins) (s : State) : (countTick p s).calloPh = s.calloPh := by
  unfold countTick; split <;> rfl

@[simp] theorem statusRead_calloPh (b : Byte) (e : Word) (s : State) : (statusRead b e s).calloPh = s.calloPh := by
  simp only [statusRead, notReady, goOn]; repeat' split
  all_goals simp

@[simp] theorem scExec_calloPh (s : State) : (scExec s).calloPh = s.calloPh := by
  simp only [scExec, completeCode2v, completeV2in, completeDcal, completeV2ph, completeV2phu]; repeat' split
  all_goals simp

@[simp] theorem sequencer_calloPh (p : Pins) (s : State) : (sequencer p s).calloPh = s.calloPh := by
  simp only [sequencer, edgeTSel, edgeTRst, edgeTCfg, edgeTStart, edgeTPoll, edgeWDelay, edgeTRead, goOn]
  repeat' split
  all_goals simp

@[simp] theorem countTick_calloV (p : Pins) (s : State) : (countTick p s).calloV = s.calloV := by
  unfold countTick; split <;> rfl

@[simp] theorem statusRead_calloV (b : Byte) (e : Word) (s : State) : (statusRead b e s).calloV = s.calloV := by
  simp only [statusRead, notReady, goOn]; repeat' split
  all_goals simp

@[simp] theorem scExec_calloV (s : State) : (scExec s).calloV = s.calloV := by
  simp only [scExec, completeCode2v, completeV2in, completeDcal, completeV2ph, completeV2phu]; repeat' split
  all_goals simp

@[simp] theorem sequencer_calloV (p : Pins) (s : State) : (sequencer p s).calloV = s.calloV := by
  simp only [sequencer, edgeTSel, edgeTRst, edgeTCfg, edgeTStart, edgeTPoll, edgeWDelay, edgeTRead, goOn]
  repeat' split
  all_goals simp

@[simp] theorem countTick_calhiPh (p : Pins) (s : State) : (countTick p s).calhiPh = s.calhiPh := by
  unfold countTick; split <;> rfl

@[simp] theorem statusRead_calhiPh (b : Byte) (e : Word) (s : State) : (statusRead b e s).calhiPh = s.calhiPh := by
  simp only [statusRead, notReady, goOn]; repeat' split
  all_goals simp

@[simp] theorem scExec_calhiPh (s : State) : (scExec s).calhiPh = s.calhiPh := by
  simp only [scExec, completeCode2v, completeV2in, completeDcal, completeV2ph, completeV2phu]; repeat' split
  all_goals simp

@[simp] theorem sequencer_calhiPh (p : Pins) (s : State) : (sequencer p s).calhiPh = s.calhiPh := by
  simp only [sequencer, edgeTSel, edgeTRst, edgeTCfg, edgeTStart, edgeTPoll, edgeWDelay, edgeTRead, goOn]
  repeat' split
  all_goals simp

@[simp] theorem countTick_calhiV (p : Pins) (s : State) : (countTick p s).calhiV = s.calhiV := by
  unfold countTick; split <;> rfl

@[simp] theorem statusRead_calhiV (b : Byte) (e : Word) (s : State) : (statusRead b e s).calhiV = s.calhiV := by
  simp only [statusRead, notReady, goOn]; repeat' split
  all_goals simp

@[simp] theorem scExec_calhiV (s : State) : (scExec s).calhiV = s.calhiV := by
  simp only [scExec, completeCode2v, completeV2in, completeDcal, completeV2ph, completeV2phu]; repeat' split
  all_goals simp

@[simp] theorem sequencer_calhiV (p : Pins) (s : State) : (sequencer p s).calhiV = s.calhiV := by
  simp only [sequencer, edgeTSel, edgeTRst, edgeTCfg, edgeTStart, edgeTPoll, edgeWDelay, edgeTRead, goOn]
  repeat' split
  all_goals simp

@[simp] theorem countTick_thslope (p : Pins) (s : State) : (countTick p s).thslope = s.thslope := by
  unfold countTick; split <;> rfl

@[simp] theorem statusRead_thslope (b : Byte) (e : Word) (s : State) : (statusRead b e s).thslope = s.thslope := by
  simp only [statusRead, notReady, goOn]; repeat' split
  all_goals simp

@[simp] theorem scExec_thslope (s : State) : (scExec s).thslope = s.thslope := by
  simp only [scExec, completeCode2v, completeV2in, completeDcal, completeV2ph, completeV2phu]; repeat' split
  all_goals simp

@[simp] theorem sequencer_thslope (p : Pins) (s : State) : (sequencer p s).thslope = s.thslope := by
  simp only [sequencer, edgeTSel, edgeTRst, edgeTCfg, edgeTStart, edgeTPoll, edgeWDelay, edgeTRead, goOn]
  repeat' split
  all_goals simp

@[simp] theorem countTick_pins (p : Pins) (s : State) : (countTick p s).pins = s.pins := by
  unfold countTick; split <;> rfl

@[simp] theorem statusRead_pins (b : Byte) (e : Word) (s : State) : (statusRead b e s).pins = s.pins := by
  simp only [statusRead, notReady, goOn]; repeat' split
  all_goals simp

@[simp] theorem scExec_pins (s : State) : (scExec s).pins = s.pins := by
  simp only [scExec, completeCode2v, completeV2in, completeDcal, completeV2ph, completeV2phu]; repeat' split
  all_goals simp

@[simp] theorem sequencer_pins (p : Pins) (s : State) : (sequencer p s).pins = s.pins := by
  simp only [sequencer, edgeTSel, edgeTRst, edgeTCfg, edgeTStart, edgeTPoll, edgeWDelay, edgeTRead, goOn]
  repeat' split
  all_goals simp

@[simp] theorem countTick_script (p : Pins) (s : State) : (countTick p s).script = s.script := by
  unfold countTick; split <;> rfl

@[simp] theorem statusRead_script (b : Byte) (e : Word) (s : State) : (statusRead b e s).script = s.script := by
  simp only [statusRead, notReady, goOn]; repeat' split
  all_goals simp

@[simp] theorem scExec_script (s : State) : (scExec s).script = s.script := by
  simp only [scExec, completeCode2v, completeV2in, completeDcal, completeV2ph, completeV2phu]; repeat' split
  all_goals simp

@[simp] theorem sequencer_script (p : Pins) (s : State) : (sequencer p s).script = s.script := by
  simp only [sequencer, edgeTSel, edgeTRst, edgeTCfg, edgeTStart, edgeTPoll, edgeWDelay, edgeTRead, goOn]
  repeat' split
  all_goals simp

@[simp] theorem countTick_edge (p : Pins) (s : State) : (countTick p s).edge = s.edge := by
  unfold countTick; split <;> rfl

@[simp] theorem statusRead_edge (b : Byte) (e : Word) (s : State) : (statusRead b e s).edge = s.edge := by
  simp only [statusRead, notReady, goOn]; repeat' split
  all_goals simp

@[simp] theorem scExec_edge (s : State) : (scExec s).edge = s.edge := by
  simp only [scExec, completeCode2v, completeV2in, completeDcal, completeV2ph, completeV2phu]; repeat' split
  all_goals simp

@[simp] theorem sequencer_edge (p : Pins) (s : State) : (sequencer p s).edge = s.edge := by
  simp only [sequencer, edgeTSel, edgeTRst, edgeTCfg, edgeTStart, edgeTPoll, edgeWDelay, edgeTRead, goOn]
  repeat' split
  all_goals simp

@[simp] theorem countTick_hRdata (p : Pins) (s : State) : (countTick p s).hRdata = s.hRdata := by
  unfold countTick; split <;> rfl

@[simp] theorem statusRead_hRdata (b : Byte) (e : Word) (s : State) : (statusRead b e s).hRdata = s.hRdata := by
  simp only [statusRead, notReady, goOn]; repeat' split
  all_goals simp

@[simp] theorem scExec_hRdata (s : State) : (scExec s).hRdata = s.hRdata := by
  simp only [scExec, completeCode2v, completeV2in, completeDcal, completeV2ph, completeV2phu]; repeat' split
  all_goals simp

@[simp] theorem sequencer_hRdata (p : Pins) (s : State) : (sequencer p s).hRdata = s.hRdata := by
  simp only [sequencer, edgeTSel, edgeTRst, edgeTCfg, edgeTStart, edgeTPoll, edgeWDelay, edgeTRead, goOn]
  repeat' split
  all_goals simp

/-! What a register write never touches (R123) -/

@[simp] theorem writeReg_st (n : BitVec 5) (d : Word) (s : State) : (State.writeReg n d s).st = s.st := by
  unfold State.writeReg; split <;> rfl

@[simp] theorem writeReg_dl (n : BitVec 5) (d : Word) (s : State) : (State.writeReg n d s).dl = s.dl := by
  unfold State.writeReg; split <;> rfl

@[simp] theorem writeReg_cmd (n : BitVec 5) (d : Word) (s : State) : (State.writeReg n d s).cmd = s.cmd := by
  unfold State.writeReg; split <;> rfl

@[simp] theorem writeReg_done (n : BitVec 5) (d : Word) (s : State) : (State.writeReg n d s).done = s.done := by
  unfold State.writeReg; split <;> rfl

@[simp] theorem writeReg_outcome (n : BitVec 5) (d : Word) (s : State) : (State.writeReg n d s).outcome = s.outcome := by
  unfold State.writeReg; split <;> rfl

@[simp] theorem writeReg_errstep (n : BitVec 5) (d : Word) (s : State) : (State.writeReg n d s).errstep = s.errstep := by
  unfold State.writeReg; split <;> rfl

@[simp] theorem writeReg_calv (n : BitVec 5) (d : Word) (s : State) : (State.writeReg n d s).calv = s.calv := by
  unfold State.writeReg; split <;> rfl

@[simp] theorem writeReg_raw (n : BitVec 5) (d : Word) (s : State) : (State.writeReg n d s).raw = s.raw := by
  unfold State.writeReg; split <;> rfl

@[simp] theorem writeReg_elapsed (n : BitVec 5) (d : Word) (s : State) : (State.writeReg n d s).elapsed = s.elapsed := by
  unfold State.writeReg; split <;> rfl

@[simp] theorem writeReg_stshadow (n : BitVec 5) (d : Word) (s : State) : (State.writeReg n d s).stshadow = s.stshadow := by
  unfold State.writeReg; split <;> rfl

@[simp] theorem writeReg_slope (n : BitVec 5) (d : Word) (s : State) : (State.writeReg n d s).slope = s.slope := by
  unfold State.writeReg; split <;> rfl

@[simp] theorem writeReg_v7 (n : BitVec 5) (d : Word) (s : State) : (State.writeReg n d s).v7 = s.v7 := by
  unfold State.writeReg; split <;> rfl

@[simp] theorem writeReg_ph (n : BitVec 5) (d : Word) (s : State) : (State.writeReg n d s).ph = s.ph := by
  unfold State.writeReg; split <;> rfl

@[simp] theorem writeReg_phu (n : BitVec 5) (d : Word) (s : State) : (State.writeReg n d s).phu = s.phu := by
  unfold State.writeReg; split <;> rfl

@[simp] theorem writeReg_selected (n : BitVec 5) (d : Word) (s : State) : (State.writeReg n d s).selected = s.selected := by
  unfold State.writeReg; split <;> rfl

@[simp] theorem writeReg_devCfg (n : BitVec 5) (d : Word) (s : State) : (State.writeReg n d s).devCfg = s.devCfg := by
  unfold State.writeReg; split <;> rfl

@[simp] theorem writeReg_devOpen (n : BitVec 5) (d : Word) (s : State) : (State.writeReg n d s).devOpen = s.devOpen := by
  unfold State.writeReg; split <;> rfl

@[simp] theorem writeReg_devRun (n : BitVec 5) (d : Word) (s : State) : (State.writeReg n d s).devRun = s.devRun := by
  unfold State.writeReg; split <;> rfl

@[simp] theorem writeReg_pins (n : BitVec 5) (d : Word) (s : State) : (State.writeReg n d s).pins = s.pins := by
  unfold State.writeReg; split <;> rfl

@[simp] theorem writeReg_script (n : BitVec 5) (d : Word) (s : State) : (State.writeReg n d s).script = s.script := by
  unfold State.writeReg; split <;> rfl

@[simp] theorem writeReg_edge (n : BitVec 5) (d : Word) (s : State) : (State.writeReg n d s).edge = s.edge := by
  unfold State.writeReg; split <;> rfl

@[simp] theorem writeReg_hRdata (n : BitVec 5) (d : Word) (s : State) : (State.writeReg n d s).hRdata = s.hRdata := by
  unfold State.writeReg; split <;> rfl

/-- The block after a reset edge is the block at reset (R52); the devices stay as they were, or their target is open. -/
theorem resetEdge_frame (w : PortWord) (s : State) :
    ∃ c o u, resetEdge w s = { State.reset with
      devCfg := c, devOpen := o, devRun := u, pins := s.pins, script := s.script, edge := s.edge,
      hRdata := shownAtReset w s } ∧
      ((c = s.devCfg ∧ o = s.devOpen ∧ u = s.devRun) ∨
        (c = (forgetDevice s).devCfg ∧ o = (forgetDevice s).devOpen ∧ u = (forgetDevice s).devRun)) := by
  refine ⟨_, _, _, rfl, ?_⟩
  unfold withdrawn
  split
  · exact .inr ⟨rfl, rfl, rfl⟩
  · exact .inl ⟨rfl, rfl, rfl⟩

end Sys2Proof.Machine
end

