-- ==== Sys2Proof/Laws/Operands.lean ====
section
/-! SUPPORT. The arithmetic of unit SC in the terms of the library, the range test, the tick, and what the operations on
the environment leave known of each device. -/

namespace Sys2Proof.Machine

/-- The quotient of R9 is the library's quotient toward zero. -/
theorem tdiv_eq (a b : Int) : tdiv a b = Int.tdiv a b := by
  unfold tdiv
  rcases Int.natAbs_eq a with ha | ha <;> rcases Int.natAbs_eq b with hb | hb <;> rw [ha, hb] <;>
    generalize a.natAbs = m <;> generalize b.natAbs = k <;> cases m <;> cases k <;>
    simp only [Int.natAbs_neg, Int.natAbs_natCast, Int.sign_neg, Int.neg_tdiv, Int.tdiv_neg, Int.ofNat_tdiv,
      Nat.cast_zero, Int.sign_zero] <;> simp

/-- The fx32 range (R196). -/
theorem inRange_iff (v : Int) : inRange v = true ↔ -2147483648 ≤ v ∧ v ≤ 2147483647 := by simp [inRange]

/-- The configuration check (R165). -/
theorem cfgOk_iff (c : Byte) (e : Word) : cfgOk c e = true ↔ c.getLsbD 0 = false ∨ 0 < e.toInt := by
  simp [cfgOk, cfgVref]

/-- A tick counts one, saturating (R171). -/
theorem tickElapsed_toNat (e : Word) : (tickElapsed e).toNat = min (e.toNat + 1) 0xFFFFFFFF := by
  have hlt := e.isLt
  unfold tickElapsed
  split
  · rename_i h
    subst h
    rfl
  · rename_i h
    have hne : e.toNat ≠ 4294967295 := fun h' => h (BitVec.eq_of_toNat_eq h')
    rw [BitVec.toNat_add]
    simp
    omega

theorem tickElapsed_eq (e : Word) : tickElapsed e = BitVec.ofNat 32 (min (e.toNat + 1) 0xFFFFFFFF) := by
  apply BitVec.eq_of_toNat_eq
  rw [tickElapsed_toNat, BitVec.toNat_ofNat, Nat.mod_eq_of_lt (by omega)]

/-! What the environment operations do, one bus address at a time -/

theorem forgetDevice_forgotten (s : State) : DeviceForgotten s (forgetDevice s) := by
  refine fun b => ⟨fun h => ?_, fun h => ⟨⟨?_, ?_⟩, ?_⟩⟩ <;>
    simp [forgetDevice, State.configOpen, State.deviceConfig, Memory.read_write, Memory.read_erase, Memory.read_set, h]

theorem configureDevice_configured (v : Byte) (s : State) : DeviceConfigured v s (configureDevice v s) := by
  refine fun b => ⟨fun h => ⟨?_, ?_⟩, fun h => ⟨?_, ?_⟩, rfl⟩ <;>
    simp [configureDevice, State.configOpen, State.deviceConfig, Memory.read_erase, Memory.read_keep, h]

/-- An answer settles an open register and changes no other (R74, R143). -/
theorem learnConfig_cases (v : Byte) (s : State) :
    (s.configOpen s.target.toNat = true ∧ DeviceConfigured v s (learnConfig v s)) ∨
    (s.configOpen s.target.toNat = false ∧ learnConfig v s = s) := by
  unfold learnConfig
  split
  · exact .inl ⟨‹_›, configureDevice_configured v s⟩
  · rename_i h
    exact .inr ⟨by simpa using h, rfl⟩

theorem startDevice_started (s : State) : DeviceStarted s (startDevice s) := by
  refine fun b => ⟨⟨rfl, rfl⟩, ?_⟩
  simp only [startDevice, Memory.read_write]
  split
  · rename_i h; rw [h]
  · rfl

/-- The predicates on devices read the memories of the later state only. -/
theorem ConfigSame.of_eq {s t u : State} {b : Nat} (h : ConfigSame s t b) (hc : u.devCfg = t.devCfg)
    (ho : u.devOpen = t.devOpen) : ConfigSame s u b := by
  unfold ConfigSame State.deviceConfig State.configOpen at *
  rwa [hc, ho]

theorem DeviceForgotten.of_eq {s t u : State} (h : DeviceForgotten s t) (hc : u.devCfg = t.devCfg)
    (ho : u.devOpen = t.devOpen) (hr : u.devRun = t.devRun) : DeviceForgotten s u := fun b =>
  ⟨fun hb => by have := (h b).1 hb; unfold State.configOpen at *; rwa [ho],
    fun hb => ⟨((h b).2 hb).1.of_eq hc ho, by rw [hr]; exact ((h b).2 hb).2⟩⟩

theorem DeviceConfigured.of_eq {v : Byte} {s t u : State} (h : DeviceConfigured v s t) (hc : u.devCfg = t.devCfg)
    (ho : u.devOpen = t.devOpen) (hr : u.devRun = t.devRun) : DeviceConfigured v s u := fun b =>
  ⟨fun hb => by have := (h b).1 hb; unfold State.deviceConfig State.configOpen at *; rwa [hc, ho],
    fun hb => ((h b).2.1 hb).of_eq hc ho, by rw [hr]; exact (h b).2.2⟩

theorem DeviceStarted.of_eq {s t u : State} (h : DeviceStarted s t) (hc : u.devCfg = t.devCfg)
    (ho : u.devOpen = t.devOpen) (hr : u.devRun = t.devRun) : DeviceStarted s u := fun b =>
  ⟨(h b).1.of_eq hc ho, by rw [hr]; exact (h b).2⟩

theorem DeviceSame.of_eq {s t : State} (hc : t.devCfg = s.devCfg) (ho : t.devOpen = s.devOpen)
    (hr : t.devRun = s.devRun) : DeviceSame s t := fun b =>
  ⟨ConfigSame.of_eq ⟨rfl, rfl⟩ hc ho, by rw [hr]⟩

/-- An answer touches the configuration registers only. -/
theorem learnConfig_frame (v : Byte) (s : State) :
    learnConfig v s = { s with devCfg := (learnConfig v s).devCfg, devOpen := (learnConfig v s).devOpen } := by
  unfold learnConfig; split <;> rfl

end Sys2Proof.Machine
end

