-- ==== Sys2Proof/Laws/PerInstr.lean ====
section
/-! SUPPORT. The family `RowMatch`, one lemma per instruction: the word the encoder gives it is a word of its row of
spec/opcode_table.json, in the row's format and with the row's fixed bits (R108). -/

namespace Sys2Proof.Laws.RowMatch

open Sys2Proof

/-- The word is of format HOST38 or HOSTOP and carries `value` under `mask`. -/
def host (value mask : BitVec 38) : PortWord → Prop
  | .host w => w &&& mask = value
  | .devCmd _ | .devCmdData _ | .treq _ => False

/-- The word is of format DEVCMD8 and is `value`: the mask of its rows is 0xFF. -/
def devCmd (value : BitVec 8) : PortWord → Prop
  | .devCmd w => w &&& 0xFF = value
  | .host _ | .devCmdData _ | .treq _ => False

/-- The word is of format DEVCMD8_DATA8 and carries `value` under `mask`. -/
def devCmdData (value mask : BitVec 16) : PortWord → Prop
  | .devCmdData w => w &&& mask = value
  | .host _ | .devCmd _ | .treq _ => False

/-- The word is of format TREQ19 and carries `value` under the mask 0x70000 of its rows. -/
def treq (value : BitVec 19) : PortWord → Prop
  | .treq w => w &&& 0x70000 = value
  | .host _ | .devCmd _ | .devCmdData _ => False

/-- The word of `i` is a word of its row; `match` and `mask` as spec/opcode_table.json writes them. -/
def Statement (i : Instr) : Prop :=
  match i with
  | .rd _ _ => host 0x0000000000 0x2000000000 (encode i)
  | .wr _ _ => host 0x2000000000 0x2000000000 (encode i)
  | .select _ => host 0x2000000001 0x3F0000000F (encode i)
  | .devReset _ => host 0x2000000002 0x3F0000000F (encode i)
  | .wrcfg _ => host 0x2000000003 0x3F0000000F (encode i)
  | .start _ => host 0x2000000004 0x3F0000000F (encode i)
  | .waitrdy _ => host 0x2000000005 0x3F0000000F (encode i)
  | .rdraw _ => host 0x2000000006 0x3F0000000F (encode i)
  | .capture _ => host 0x2000000007 0x3F0000000F (encode i)
  | .code2v _ => host 0x2000000008 0x3F0000000F (encode i)
  | .v2in _ => host 0x2000000009 0x3F0000000F (encode i)
  | .dcal _ => host 0x200000000A 0x3F0000000F (encode i)
  | .v2ph _ => host 0x200000000B 0x3F0000000F (encode i)
  | .v2phu _ => host 0x200000000C 0x3F0000000F (encode i)
  | .dvReset => devCmd 0x06 (encode i)
  | .dvStartSync => devCmd 0x08 (encode i)
  | .dvReadData => devCmd 0x10 (encode i)
  | .dvReadConfig => devCmd 0x20 (encode i)
  | .dvReadStatus => devCmd 0x24 (encode i)
  | .dvWriteConfig _ _ => devCmdData 0x4000 0xFF0F (encode i)
  | .tSelect _ _ => treq 0x00000 (encode i)
  | .tWriteCmd _ _ => treq 0x10000 (encode i)
  | .tWriteCmdData _ _ => treq 0x20000 (encode i)
  | .tReadByte _ _ => treq 0x30000 (encode i)
  | .tReadWord _ _ => treq 0x40000 (encode i)

/-- The top bit of a host word under the mask of RD and WR. -/
theorem host_top (b : BitVec 1) (a : BitVec 5) (d : Word) :
    (b ++ a ++ d : BitVec 38) &&& 0x2000000000#38 = (b ++ 0#37 : BitVec 38) := by
  have h := fun i => getLsbD_join 38 rfl (b ++ a) d i
  have h2 := fun i => getLsbD_join 6 rfl b a i
  have h3 := fun i => getLsbD_join 38 rfl b 0#37 i
  simp only [BitVec.cast_eq] at h h2 h3
  have hm : ∀ i < 37, (0x2000000000#38).getLsbD i = false := by decide
  apply BitVec.eq_of_getLsbD_eq
  intro i hi
  rw [BitVec.getLsbD_and, h3]
  by_cases h37 : i < 37
  · rw [if_pos h37, hm i h37]
    simp
  · obtain rfl : i = 37 := by omega
    rw [h, if_neg (by omega), h2, if_neg (by omega), if_neg (by omega)]
    exact Bool.and_true _

/-- The fixed bits of an operation's word under the mask of the HOSTOP rows. -/
theorem host_op (x : BitVec 28) (c : BitVec 4) :
    (1#1 ++ 0#5 ++ (x ++ c : Word) : BitVec 38) &&& 0x3F0000000F#38 = (0x200000000#34 ++ c : BitVec 38) := by
  have h := fun i => getLsbD_join 38 rfl (1#1 ++ 0#5) (x ++ c : Word) i
  have h2 := fun i => getLsbD_join 32 rfl x c i
  have h3 := fun i => getLsbD_join 38 rfl 0x200000000#34 c i
  simp only [BitVec.cast_eq] at h h2 h3
  have hlow : ∀ i < 4, (0x3F0000000F#38).getLsbD i = true := by decide
  have hmid : ∀ i < 32, ¬ i < 4 →
      (0x3F0000000F#38).getLsbD i = false ∧ (0x200000000#34).getLsbD (i - 4) = false := by decide
  have hhigh : ∀ i < 38, ¬ i < 32 → ((1#1 ++ 0#5 : BitVec 6).getLsbD (i - 32) && (0x3F0000000F#38).getLsbD i) =
      (0x200000000#34).getLsbD (i - 4) := by decide
  apply BitVec.eq_of_getLsbD_eq
  intro i hi
  rw [BitVec.getLsbD_and, h, h2, h3]
  by_cases h4 : i < 4
  · rw [if_pos (by omega), if_pos h4, if_pos h4, hlow i h4, Bool.and_true]
  · by_cases h32 : i < 32
    · have hm := hmid i h32 h4
      rw [if_pos h32, if_neg h4, if_neg h4, hm.1, hm.2, Bool.and_false]
    · rw [if_neg h32, if_neg h4, hhigh i hi h32]

/-- The top bits of a transport request word under the mask of its rows. -/
theorem treq_op (c : BitVec 3) (a b : Byte) :
    (c ++ a ++ b : BitVec 19) &&& 0x70000#19 = (c ++ 0#16 : BitVec 19) := by
  have h := fun i => getLsbD_join 19 rfl (c ++ a) b i
  have h2 := fun i => getLsbD_join 11 rfl c a i
  have h3 := fun i => getLsbD_join 19 rfl c 0#16 i
  simp only [BitVec.cast_eq] at h h2 h3
  have hlow : ∀ i < 16, (0x70000#19).getLsbD i = false := by decide
  have hhigh : ∀ i < 19, ¬ i < 16 → (0x70000#19).getLsbD i = true := by decide
  apply BitVec.eq_of_getLsbD_eq
  intro i hi
  rw [BitVec.getLsbD_and, h3]
  by_cases h4 : i < 16
  · rw [if_pos h4, hlow i h4, Bool.and_false]
    simp
  · rw [h, h2, if_neg (by omega), if_neg (by omega), if_neg h4, hhigh i hi h4, Bool.and_true,
      show i - 8 - 8 = i - 16 by omega]

theorem rd (a : BitVec 5) (x : Word) : Statement (.rd a x) := host_top 0#1 a x
theorem wr (a : BitVec 5) (d : Word) : Statement (.wr a d) := host_top 1#1 a d
theorem select (x : BitVec 28) : Statement (.select x) := host_op x HostOp.select.code
theorem devReset (x : BitVec 28) : Statement (.devReset x) := host_op x HostOp.devReset.code
theorem wrcfg (x : BitVec 28) : Statement (.wrcfg x) := host_op x HostOp.wrcfg.code
theorem start (x : BitVec 28) : Statement (.start x) := host_op x HostOp.start.code
theorem waitrdy (x : BitVec 28) : Statement (.waitrdy x) := host_op x HostOp.waitrdy.code
theorem rdraw (x : BitVec 28) : Statement (.rdraw x) := host_op x HostOp.rdraw.code
theorem capture (x : BitVec 28) : Statement (.capture x) := host_op x HostOp.capture.code
theorem code2v (x : BitVec 28) : Statement (.code2v x) := host_op x HostOp.code2v.code
theorem v2in (x : BitVec 28) : Statement (.v2in x) := host_op x HostOp.v2in.code
theorem dcal (x : BitVec 28) : Statement (.dcal x) := host_op x HostOp.dcal.code
theorem v2ph (x : BitVec 28) : Statement (.v2ph x) := host_op x HostOp.v2ph.code
theorem v2phu (x : BitVec 28) : Statement (.v2phu x) := host_op x HostOp.v2phu.code
theorem dvReset : Statement .dvReset := rfl
theorem dvStartSync : Statement .dvStartSync := rfl
theorem dvReadData : Statement .dvReadData := rfl
theorem dvReadConfig : Statement .dvReadConfig := rfl
theorem dvReadStatus : Statement .dvReadStatus := rfl
theorem dvWriteConfig (mux : BitVec 3) (gain : BitVec 1) : Statement (.dvWriteConfig mux gain) := by
  show (0x40#8 ++ configByte mux gain : BitVec 16) &&& 0xFF0F = 0x4000
  revert mux gain; decide
theorem tSelect (a b : Byte) : Statement (.tSelect a b) := treq_op TOp.select.code a b
theorem tWriteCmd (a b : Byte) : Statement (.tWriteCmd a b) := treq_op TOp.writeCmd.code a b
theorem tWriteCmdData (a b : Byte) : Statement (.tWriteCmdData a b) := treq_op TOp.writeCmdData.code a b
theorem tReadByte (a b : Byte) : Statement (.tReadByte a b) := treq_op TOp.readByte.code a b
theorem tReadWord (a b : Byte) : Statement (.tReadWord a b) := treq_op TOp.readWord.code a b

end Sys2Proof.Laws.RowMatch
end

