-- ==== Sys2Proof/Laws/Step.lean ====
section
/-! SUPPORT. What a step can do, said once: `exec_cases` for one instruction, `step_cases` for one edge, and what the
register and CMD writes can do. -/

namespace Sys2Proof.Machine

/-- An operation's constructor runs as the write of its op code to CMD. -/
theorem exec_instr (op : HostOp) (x : BitVec 28) (s : State) :
    exec (op.instr x) s = .next (writeEdge 0 (writeCmdReg (x ++ op.code)) s) := by
  have h : writeCmdReg (x ++ op.code) =
      (match op with
        | .wrcfg => acceptChecked .wrcfg
        | .capture => acceptChecked .capture
        | .waitrdy => fun s => { accept .waitrdy s with elapsed := 0 }
        | op => accept op) := by
    funext s
    unfold writeCmdReg
    rw [(cmdWord_fields x op.code).1, HostOp.ofCode_code]
    cases op <;> rfl
  cases op <;> rw [h] <;> rfl

theorem writeEdge_idle (n : BitVec 5) (act : State → State) (s : State) (h : s.st = .idle) :
    writeEdge n act s = latchRead n s (act s) := by simp [writeEdge, State.busy, h]

theorem writeEdge_busy (n : BitVec 5) (act : State → State) (s : State) (h : s.st ≠ .idle) :
    writeEdge n act s = latchRead n s (sequencer s.pins s).hostError := by simp [writeEdge, State.busy, h]

/-- The edges an instruction can run: a read, a STATUS write, a lost write, a CMD write while idle, another register
write while idle, the block's own transaction, another master's transaction. -/
inductive ExecCase (i : Instr) (s t : State) : Prop where
  | read (n : BitVec 5) (g : Word) (hi : i = .rd n g) (ht : t = latchRead n s (sequencer s.pins s))
  | status (d : Word) (hi : i = .wr 1 d) (ht : t = latchRead 1 s ((sequencer s.pins s).writeStatus d))
  | lost (n : BitVec 5) (hb : s.st ≠ .idle) (hn : n ≠ 1)
      (hi : (∃ d, i = .wr n d) ∨ ∃ (op : HostOp) (x : BitVec 28), i = op.instr x)
      (ht : t = latchRead n s (sequencer s.pins s).hostError)
  | command (d : Word) (hb : s.st = .idle)
      (hi : i = .wr 0 d ∨ ∃ (op : HostOp) (x : BitVec 28), i = op.instr x ∧ d = x ++ op.code)
      (ht : t = latchRead 0 s (writeCmdReg d s))
  | register (n : BitVec 5) (d : Word) (hb : s.st = .idle) (h0 : n ≠ 0) (h1 : n ≠ 1) (hi : i = .wr n d)
      (ht : t = latchRead n s (s.writeReg n d))
  | own (r : TReq) (hr : s.request = some r) (hi : (encode i).isHost = false) (ht : t = sequencer s.pins s)
  | other (r : TReq) (hr : s.request ≠ some r) (hi : (encode i).isHost = false)
      (ht : t = if s.pins.ack then
          transactionEnd r s.pins.err s.pins.rdata (sequencer (withoutAck s.pins) s)
        else sequencer (withoutAck s.pins) s)

theorem transactEdge_cases (i : Instr) (r : TReq) (s t : State) (hi : (encode i).isHost = false)
    (h : (.next (transactEdge r s) : Host.Outcome State Fault Refusal) = .next t) : ExecCase i s t := by
  cases h
  unfold transactEdge
  split
  · exact .own r ‹_› hi rfl
  · exact .other r ‹_› hi rfl

theorem exec_instr_cases (op : HostOp) (x : BitVec 28) (s t : State) (h : exec (op.instr x) s = .next t) :
    ExecCase (op.instr x) s t := by
  rw [exec_instr] at h
  cases h
  by_cases hs : s.st = .idle
  · rw [writeEdge_idle _ _ _ hs]
    exact .command _ hs (.inr ⟨op, x, rfl, rfl⟩) rfl
  · rw [writeEdge_busy _ _ _ hs]
    exact .lost 0 hs (by decide) (.inr ⟨op, x, rfl⟩) rfl

/-- What an instruction can do. -/
theorem exec_cases (i : Instr) (s t : State) (h : exec i s = .next t) : ExecCase i s t := by
  cases i with
  | rd n g => cases h; exact .read n g rfl rfl
  | wr n d =>
    simp only [exec, execWr] at h
    split at h
    · rename_i h1; cases h; subst h1; exact .status d rfl rfl
    · rename_i h1
      by_cases hs : s.st = .idle
      · split at h <;> cases h <;> rw [writeEdge_idle _ _ _ hs]
        · rename_i h0; subst h0; exact .command d hs (.inl rfl) rfl
        · rename_i h0; exact .register n d hs h0 h1 rfl rfl
      · split at h <;> cases h <;> rw [writeEdge_busy _ _ _ hs] <;> exact .lost n hs h1 (.inl ⟨d, rfl⟩) rfl
  | select x => exact exec_instr_cases .select x s t h
  | devReset x => exact exec_instr_cases .devReset x s t h
  | wrcfg x => exact exec_instr_cases .wrcfg x s t h
  | start x => exact exec_instr_cases .start x s t h
  | waitrdy x => exact exec_instr_cases .waitrdy x s t h
  | rdraw x => exact exec_instr_cases .rdraw x s t h
  | capture x => exact exec_instr_cases .capture x s t h
  | code2v x => exact exec_instr_cases .code2v x s t h
  | v2in x => exact exec_instr_cases .v2in x s t h
  | dcal x => exact exec_instr_cases .dcal x s t h
  | v2ph x => exact exec_instr_cases .v2ph x s t h
  | v2phu x => exact exec_instr_cases .v2phu x s t h
  | dvReset | dvStartSync | dvReadData | dvReadConfig | dvReadStatus | dvWriteConfig _ _
  | tSelect _ _ | tWriteCmd _ _ | tWriteCmdData _ _ | tReadByte _ _ | tReadWord _ _ =>
    exact transactEdge_cases _ _ s t rfl h

/-- What an edge can do: the reset, or the instruction of its word. -/
theorem step_cases (s t : State) (h : step s = .next t) :
    (s.nextCycle.pins.rst = true ∧ t = resetEdge s.nextCycle.word s.sampled) ∨
    (s.nextCycle.pins.rst = false ∧ ∃ i, decode s.nextCycle.word = .ok i ∧ exec i s.sampled = .next t) := by
  unfold step at h
  split at h
  · cases h; exact .inl ⟨‹_›, rfl⟩
  · rename_i hr
    split at h
    · rename_i i hi; exact .inr ⟨by simpa using hr, i, hi, h⟩
    · cases h

/-- What a CMD write while idle can do (R126). -/
theorem writeCmdReg_cases (d : Word) (s : State) :
    (HostOp.ofCode (d.extractLsb' 0 4) = none ∧ writeCmdReg d s = s.hostError) ∨
    (∃ op, HostOp.ofCode (d.extractLsb' 0 4) = some op ∧
      ((op = .wrcfg ∨ op = .capture) ∧ cfgOk s.cfg s.extref = false ∧
          writeCmdReg d s = raise .config (acceptClear op s) ∨
        ((op = .wrcfg ∨ op = .capture) → cfgOk s.cfg s.extref = true) ∧
          writeCmdReg d s = { accept op s with elapsed := if op = .waitrdy then 0 else s.elapsed })) := by
  unfold writeCmdReg
  cases hop : HostOp.ofCode (d.extractLsb' 0 4) with
  | none => exact .inl ⟨rfl, rfl⟩
  | some op =>
    refine .inr ⟨op, rfl, ?_⟩
    cases op <;> try exact .inr ⟨by simp, rfl⟩
    all_goals
      cases hc : cfgOk s.cfg s.extref
      · exact .inl ⟨by simp, rfl, by simp [acceptChecked, hc]⟩
      · exact .inr ⟨by simp, by simp [acceptChecked, hc]; rfl⟩

end Sys2Proof.Machine
end

