-- ==== Sys2Proof/Tests/Slice0.lean ====
section
/-! SUPPORT. Tests: the words of every constructor written out from the spec's encodings, the well-formedness smoke
test, one or two single edges per instruction with results from spec/95_test_vectors.md ("V", "P" and "2.n" name its
vectors, programs and sections), and for every statement with hypotheses a witness that meets them. -/

namespace Sys2Proof.Tests

open Sys2Proof Sys2Proof.Machine

/-- A field of the next state. -/
def after {α : Type} (o : Host.Outcome State Fault Refusal) (f : State → α) : Option α :=
  match o with
  | .next t => some (f t)
  | .fault _ => none
  | .refused _ => none

/-- An acknowledge without error, with read data `d`. -/
def ok (d : Half) : Pins := { Pins.quiet with ack := true, rdata := d }

/-- An acknowledge with the error bit. -/
def bad : Pins := { Pins.quiet with ack := true, err := true }

/-- A tick of the timebase alone. -/
def tick : Pins := { Pins.quiet with tick := true }

/-- The reset state with another FSM state, CMD and pins. -/
def at' (st : St) (cmd : BitVec 4) (p : Pins) : State := { State.reset with st := st, cmd := cmd, pins := p }

/-- The reset state with one cycle scripted. -/
def withCycle (w : PortWord) (p : Pins) : State := { State.reset with script := [⟨w, p⟩] }

/-! ## Well-formedness: the only check refuses the writes that have a constructor of their own (R126, R127) -/

theorem test_wf_refuses_select : (Instr.wr 0 0x1).wf = false := by decide
theorem test_wf_refuses_v2phu_ignored_bits : (Instr.wr 0 0xFFFFFFFC).wf = false := by decide
theorem test_wf_admits_reserved : (Instr.wr 0 0).wf = true ∧ (Instr.wr 0 13).wf = true ∧ (Instr.wr 1 7).wf = true := by
  decide

/-! ## Decoding: words written out bit by bit (R108) -/

theorem test_decode_rd : decode (.host 0b0_00101_00000000000000000000000000000000#38) = .ok (.rd 5 0) := by decide
theorem test_decode_wr : decode (.host 0b1_00110_00000000000000010010001101000101#38) = .ok (.wr 6 0x12345) := by decide
theorem test_decode_select : decode (.host 0b1_00000_0000000000000000000000000000_0001#38) = .ok (.select 0) := by
  decide
theorem test_decode_devReset : decode (.host 0b1_00000_0000000000000000000000000000_0010#38) = .ok (.devReset 0) := by
  decide
theorem test_decode_wrcfg : decode (.host 0b1_00000_0000000000000000000000000000_0011#38) = .ok (.wrcfg 0) := by
  decide
theorem test_decode_start : decode (.host 0b1_00000_0000000000000000000000000000_0100#38) = .ok (.start 0) := by
  decide
theorem test_decode_waitrdy : decode (.host 0b1_00000_0000000000000000000000000000_0101#38) = .ok (.waitrdy 0) := by
  decide
theorem test_decode_rdraw : decode (.host 0b1_00000_0000000000000000000000000000_0110#38) = .ok (.rdraw 0) := by
  decide
theorem test_decode_capture : decode (.host 0b1_00000_0000000000000000000000000000_0111#38) = .ok (.capture 0) := by
  decide
theorem test_decode_code2v :
    decode (.host 0b1_00000_1111111111111111111111111111_1000#38) = .ok (.code2v 0xFFFFFFF) := by decide
theorem test_decode_v2in : decode (.host 0b1_00000_0000000000000000000000000000_1001#38) = .ok (.v2in 0) := by decide
theorem test_decode_dcal : decode (.host 0b1_00000_0000000000000000000000000000_1010#38) = .ok (.dcal 0) := by decide
theorem test_decode_v2ph : decode (.host 0b1_00000_0000000000000000000000000000_1011#38) = .ok (.v2ph 0) := by decide
theorem test_decode_v2phu : decode (.host 0b1_00000_0000000000000000000000000000_1100#38) = .ok (.v2phu 0) := by decide
theorem test_decode_reserved_op : decode (.host 0b1_00000_0000000000000000000000000000_1101#38) = .ok (.wr 0 13) := by
  decide
theorem test_decode_dvReset : decode (.devCmd 0b00000110#8) = .ok .dvReset := by decide
theorem test_decode_dvStartSync : decode (.devCmd 0b00001000#8) = .ok .dvStartSync := by decide
theorem test_decode_dvReadData : decode (.devCmd 0b00010000#8) = .ok .dvReadData := by decide
theorem test_decode_dvReadConfig : decode (.devCmd 0b00100000#8) = .ok .dvReadConfig := by decide
theorem test_decode_dvReadStatus : decode (.devCmd 0b00100100#8) = .ok .dvReadStatus := by decide
theorem test_decode_dvWriteConfig : decode (.devCmdData 0b01000000_011_1_0000#16) = .ok (.dvWriteConfig 3 1) := by
  decide
theorem test_decode_tSelect : decode (.treq 0b000_01000000_00000000#19) = .ok (.tSelect 0x40 0) := by decide
theorem test_decode_tWriteCmd : decode (.treq 0b001_00000110_00000000#19) = .ok (.tWriteCmd 6 0) := by decide
theorem test_decode_tWriteCmdData : decode (.treq 0b010_01000000_01110000#19) = .ok (.tWriteCmdData 0x40 0x70) := by
  decide
theorem test_decode_tReadByte : decode (.treq 0b011_00100100_00000000#19) = .ok (.tReadByte 0x24 0) := by decide
theorem test_decode_tReadWord : decode (.treq 0b100_00010000_00000000#19) = .ok (.tReadWord 0x10 0) := by decide
theorem test_decode_treq_reserved : decode (.treq 0b101_00000000_00000000#19) = .error .transportOp := by decide
theorem test_decode_table_words :
    decodeTableWord 40 0x2000000007 = some (.capture 0) ∧ decodeTableWord 24 0x40000 = some (.tReadWord 0 0) ∧
    decodeTableWord 16 0x4000 = some (.dvWriteConfig 0 0) ∧ decodeTableWord 8 0x24 = some .dvReadStatus := by decide

/-! ## One edge per test -/

/-- V1.1, V1.2, V1.4. -/
theorem test_rd : after (exec (.rd 5 0) State.reset) State.hRdata = some 0x3E8 ∧
    after (exec (.rd 17 0) State.reset) State.hRdata = some 0xFFF0D845 ∧
    after (exec (.rd 1 0) State.reset) State.hRdata = some 0 := by decide

/-- V1.5, V1.6. -/
theorem test_wr : after (exec (.wr 6 0x12345) State.reset) (fun t => (t.pollus, t.hosterr)) = some (0x2345, false) ∧
    after (exec (.wr 7 5) State.reset) (fun t => (t.raw, t.status)) = some (0, 0x200) := by decide

/-- V1.7, V1.8. -/
theorem test_wr_status :
    after (exec (.wr 1 0x1FF) { State.reset with hosterr := true }) State.hosterr = some true ∧
    after (exec (.wr 1 0xFFFFFFFF) { State.reset with hosterr := true, done := true, outcome := .ok }) State.status =
      some 0x006 := by decide

/-- P1 line 2. -/
theorem test_select : after (exec (.select 0) { State.reset with addr := 0x40 })
    (fun t => (t.tReqOut, t.tOpOut, t.tAOut, t.tBOut, t.status)) = some (true, 0, 0x40, 0, 0x001) := by decide

/-- R161 and V1.14: a second issue while busy is lost. -/
theorem test_devReset : after (exec (.devReset 0) State.reset) (fun t => (t.tOpOut, t.tAOut, t.tBOut)) = some (1, 6, 0) ∧
    after (exec (.capture 0) (at' .tRst 2 Pins.quiet)) (fun t => (t.cmd, t.status)) = some (2, 0x201) := by decide

/-- Section 2.2, CFG = 0x7E. -/
theorem test_wrcfg : after (exec (.wrcfg 0) { State.reset with cfg := 0x7E })
    (fun t => (t.tOpOut, t.tAOut, t.tBOut)) = some (2, 0x40, 0x70) := by decide

theorem test_start : after (exec (.start 0) State.reset) (fun t => (t.tOpOut, t.tAOut, t.tBOut)) = some (1, 8, 0) := by
  decide

/-- R164. -/
theorem test_waitrdy : after (exec (.waitrdy 0) { State.reset with elapsed := 9 })
    (fun t => (t.tOpOut, t.tAOut, t.elapsed)) = some (3, 0x24, 0) := by decide

theorem test_rdraw : after (exec (.rdraw 0) State.reset) (fun t => (t.tOpOut, t.tAOut, t.tBOut)) = some (4, 0x10, 0) := by
  decide

/-- P4 line 2. -/
theorem test_capture_refused : after (exec (.capture 0) { State.reset with cfg := 1 })
    (fun t => (t.st, t.cmd, t.status, t.tReqOut)) = some (.idle, 7, 0x012, false) := by decide

/-- V1.12. -/
theorem test_code2v_accepted : after (exec (.code2v 0xFFFFFFF) State.reset) (fun t => (t.cmd, t.status)) =
    some (8, 0x001) := by decide

/-- Section 2.4, row 4. -/
theorem test_code2v : after (exec (.rd 0 0) { at' .scExec 8 Pins.quiet with raw := 0x8000, cfg := 0x10 })
    (fun t => (t.volts, t.status)) = some (0xFF7CED92, 0x006) := by decide

/-- Section 2.5, VOLTS -3 by 2.0, and the overflow of -128 by -1. -/
theorem test_v2in :
    after (exec (.rd 0 0) { at' .scExec 9 Pins.quiet with volts := 0xFFFFFFFD, fegain := 33554432 }) State.vinput =
      some 0xFFFFFFFF ∧
    after (exec (.rd 0 0) { at' .scExec 9 Pins.quiet with volts := 0x80000000, fegain := 0xFF000000, vinput := 5 })
      (fun t => (t.vinput, t.outcome)) = some (5, .errOverflow) := by decide

/-- E3. -/
theorem test_dcal :
    after (exec (.rd 0 0) { at' .scExec 10 Pins.quiet with
      calloPh := 0x04000000, calloV := 0x002B851F, calhiPh := 0x09333333, calhiV := 0xFFDEF9DB })
      (fun t => (t.slope, t.v7, t.status)) = some (0xFFF147AE, 0xFFFF5C29, 0x106) := by decide

/-- Section 2.6, the last row: the slope fits, V7 does not, nothing is written and CALV is cleared. -/
theorem test_dcal_overflow :
    after (exec (.rd 0 0) { at' .scExec 10 Pins.quiet with calhiPh := 1, calhiV := 127, slope := 3, calv := true })
      (fun t => (t.slope, t.calv, t.outcome)) = some (3, false, .errOverflow) := by decide

/-- Section 2.7, VINPUT 0 and the negative pH. -/
theorem test_v2ph :
    after (exec (.rd 0 0) { at' .scExec 11 Pins.quiet with slope := 0xFFF147AE, v7 := 0xFFFF5C29, calv := true })
      State.ph = some 0x06F4DE9D ∧
    after (exec (.rd 0 0) { at' .scExec 11 Pins.quiet with vinput := 0xFFFFFFF8, slope := 1, calv := true }) State.ph =
      some 0xFF000000 := by decide

/-- Section 2.8, row 4, and THSLOPE = 0. -/
theorem test_v2phu :
    after (exec (.rd 0 0) { at' .scExec 12 Pins.quiet with vinput := 2852127 }) State.phu = some 0x0420DD5A ∧
    after (exec (.rd 0 0) { at' .scExec 12 Pins.quiet with thslope := 0 }) (fun t => (t.phu, t.outcome)) =
      some (0, .errDivZero) := by decide

/-- The state walk of P1 line 4, T_RST to T_CFG. -/
theorem test_dvReset : after (exec .dvReset (at' .tRst 7 (ok 0))) State.st = some .tCfg := by decide

/-- The state walk of P1 line 4, T_CFG to T_START; the byte of P5 line 3 (R145, R74). -/
theorem test_dvWriteConfig :
    after (exec (.dvWriteConfig 3 1) { at' .tCfg 7 (ok 0) with cfg := 0x7E, selected := some 0x40 })
      (fun t => (t.st, t.devCfg)) = some (.tStart, [(0x40, 0x70)]) := by decide

/-- The state walk of P1 line 4, T_START to T_POLL. -/
theorem test_dvStartSync :
    after (exec .dvStartSync { at' .tStart 7 (ok 0) with elapsed := 9 }) (fun t => (t.st, t.elapsed)) =
      some (.tPoll, 0) := by decide

/-- V10.10 and V10.11. -/
theorem test_dvReadStatus :
    after (exec .dvReadStatus (at' .tPoll 5 (ok 0x7F))) (fun t => (t.st, t.stshadow, t.dl)) =
      some (.wDelay, 0x7F, 1000) ∧
    after (exec .dvReadStatus (at' .tPoll 5 (ok 0xFF))) (fun t => (t.stshadow, t.status)) = some (0xFF, 0x006) := by
  decide

/-- V10.3, the third read: the deadline test uses the 2299 of before the edge. -/
theorem test_dvReadStatus_timeout :
    after (exec .dvReadStatus { at' .tPoll 7 { ok 0 with tick := true } with maxwait := 2, elapsed := 2299 })
      (fun t => (t.elapsed, t.raw, t.status)) = some (2300, 0xFFFF, 0x00A) := by decide

/-- P1 line 4: the first byte on the wire is in bits 7:0. -/
theorem test_dvReadData :
    after (exec .dvReadData (at' .tRead 7 (ok 0x1234))) (fun t => (t.raw, t.status)) = some (0x3412, 0x006) := by decide

/-- R74, R143: the answer settles an open register and replaces no written one. -/
theorem test_dvReadConfig :
    after (exec .dvReadConfig { at' .idle 0 (ok 0x70) with selected := some 0x40, devOpen := [(0x40, 5)] })
      (fun t => (t.status, t.devCfg, t.devOpen)) = some (0, [(0x40, 0x70)], []) ∧
    after (exec .dvReadConfig { at' .idle 0 (ok 0x70) with selected := some 0x40, devCfg := [(0x40, 0x30)] })
      (fun t => (t.status, t.devCfg)) = some (0, [(0x40, 0x30)]) := by decide

/-- P1 line 2, the transaction; section 2.11, the last row. -/
theorem test_tSelect :
    after (exec (.tSelect 0x40 0) { at' .tSel 1 (ok 0) with addr := 0x40 }) (fun t => (t.selected, t.status)) =
      some (some 0x40, 0x006) ∧
    after (exec (.tSelect 0x40 0) { at' .tSel 1 bad with addr := 0x40 }) State.status = some 0x02E := by decide

/-- Section 2.11, rows 1 and 3. -/
theorem test_tWriteCmd :
    after (exec (.tWriteCmd 0x06 0) (at' .tRst 7 bad)) State.status = some 0x04E ∧
    after (exec (.tWriteCmd 0x08 0) (at' .tStart 7 bad)) State.status = some 0x08E := by decide

/-- P3 line 4. -/
theorem test_tWriteCmdData :
    after (exec (.tWriteCmdData 0x40 0x30) { at' .tCfg 7 bad with cfg := 0x30 }) State.status = some 0x06E := by decide

/-- V10.8. -/
theorem test_tReadByte :
    after (exec (.tReadByte 0x24 0) { at' .tPoll 5 bad with stshadow := 0x55 }) (fun t => (t.stshadow, t.status)) =
      some (0x55, 0x0AE) := by decide

/-- Section 2.11, row 6. -/
theorem test_tReadWord :
    after (exec (.tReadWord 0x10 0) { at' .tRead 7 bad with raw := 0x0BAD }) (fun t => (t.raw, t.status)) =
      some (0x0BAD, 0x0CE) := by decide

/-- V12.2, V12.3. -/
theorem test_reset_wins :
    after (step { at' .tCfg 7 Pins.quiet with
      cfg := 0x30, script := [⟨encodeOp .capture 0, { ok 0 with rst := true }⟩] })
      (fun t => (t.st, t.cmd, t.status, t.cfg)) = some (.idle, 0, 0, 0) := by decide

/-- R260, R52, R74: a reset edge with no request outstanding leaves no address selected and the device's register as it
was. R120: the record of `h_rdata` is what the port showed in that cycle. -/
theorem test_reset_port :
    after (step { at' .idle 7 Pins.quiet with
      selected := some 0x40, devCfg := [(0x40, 0x30)], maxwait := 7,
      script := [⟨encode (.rd 5 0), { Pins.quiet with rst := true }⟩] })
      (fun t => (t.selected, t.deviceConfig 0x40, t.maxwait, t.hRdata)) = some (none, 0x30, 1000, 7) := by decide

/-- R9, section 2.9. -/
theorem test_tdiv : tdiv 7 2 = 3 ∧ tdiv (-7) 2 = -3 ∧ tdiv 7 (-2) = -3 ∧ tdiv (-7) (-2) = 3 ∧ tdiv (-1) 32768 = 0 := by
  decide

/-- The very next step of a state with a word presented runs it. -/
theorem test_withFetchWord : after (step (State.reset.withFetchWord 40 0x2000000004)) State.st = some .tStart := by
  decide

/-! ## Witnesses: each meets the hypotheses of the statement it is named after, clause by clause -/

theorem test_witness_DecodeEncode : (Instr.wr 0 13).wf = true ∧ (Instr.wr 31 0xFFFFFFFF).wf = true := by decide
theorem test_witness_EncodeDecode : decode (.treq 0x4FFFF) = .ok (.tReadWord 0xFF 0xFF) := by decide
theorem test_witness_StepRunsDecoded :
    (withCycle (.host 0) Pins.quiet).nextCycle.pins.rst = false ∧
    decode (withCycle (.host 0) Pins.quiet).nextCycle.word = .ok (.rd 0 0) ∧
    decode (withCycle (.treq 0x7FFFF) Pins.quiet).nextCycle.word = .error .transportOp := by decide
theorem test_witness_StepRunsPresentedWord : decodeTableWord 40 0x200000000C = some (.v2phu 0) := by decide
theorem test_witness_HostCycleHasNext : NoOtherMaster State.reset ∧ NoOtherMaster (withCycle (.host 0) tick) := ⟨rfl, rfl⟩
theorem test_witness_ResetEdge : (withCycle (encodeOp .capture 0) { ok 0 with rst := true }).nextCycle.pins.rst = true := rfl

/-- A state of an operation in flight with a reset edge to come. -/
def resetting (st : St) : State :=
  { at' st 7 Pins.quiet with script := [⟨.host 0, { Pins.quiet with rst := true }⟩], selected := some 3, devCfg := [(3, 7)] }

theorem test_witness_ResetAndTheDevice :
    ((resetting .tCfg).nextCycle.pins.rst = true ∧ (∃ t, step (resetting .tCfg) = .next t) ∧
      (resetting .tCfg).tReqOut = true) ∧
    ((resetting .wDelay).nextCycle.pins.rst = true ∧ (∃ t, step (resetting .wDelay) = .next t) ∧
      (resetting .wDelay).tReqOut = false ∧ NoOtherMaster (resetting .wDelay)) :=
  ⟨⟨rfl, ⟨_, rfl⟩, rfl⟩, rfl, ⟨_, rfl⟩, rfl, rfl⟩

/-- CAPTURE polling a selected, configured and started device, an acknowledge to come. -/
def polling : State :=
  { at' .tPoll 7 Pins.quiet with
    cfg := 0x70, selected := some 3, devCfg := [(3, 0x70)], devRun := [(3, 0x70)],
    script := [⟨.host 0, ok 0x80⟩] }

theorem polling_consistent : Consistent polling where
  inFlight := .inr ⟨.capture, rfl, rfl⟩
  clearWhileBusy _ := ⟨rfl, rfl, rfl⟩
  noOutcome _ := ⟨rfl, rfl⟩
  ended h := by cases h
  fresh h := by cases h
  delay := rfl
  checked _ _ := rfl
  sentinel _ h := by cases h

/-- In W_DELAY with `dl` at its bounds 1 and POLLUS. -/
def delaying (dl : BitVec 16) : State := { at' .wDelay 5 tick with dl := dl }

theorem delaying_consistent (dl : BitVec 16) (h : 1 ≤ dl.toNat ∧ dl.toNat ≤ 1000) : Consistent (delaying dl) where
  inFlight := .inr ⟨.waitrdy, rfl, rfl⟩
  clearWhileBusy _ := ⟨rfl, rfl, rfl⟩
  noOutcome _ := ⟨rfl, rfl⟩
  ended h := by cases h
  fresh h := by cases h
  delay := h
  checked _ h := by rcases h with h | h <;> cases h
  sentinel h := by cases h

theorem test_witness_StepKeepsConsistent : Consistent polling ∧ (∃ t, step polling = .next t) ∧
    Consistent (delaying 1) ∧ Consistent (delaying 1000) :=
  ⟨polling_consistent, ⟨_, rfl⟩, delaying_consistent 1 (by decide), delaying_consistent 1000 (by decide)⟩
theorem test_witness_StepKeepsMemoryForm : MemoryForm polling ∧ ∃ t, step polling = .next t :=
  ⟨{ cfg := by decide, written := by decide, opened := by decide, apart := fun a h => (by cases h), run := by decide },
    ⟨_, rfl⟩⟩
theorem test_witness_StepKeepsCaptureOrder :
    NoOtherMaster polling ∧ CaptureOrder polling ∧ ∃ t, step polling = .next t := by
  refine ⟨rfl, fun _ a ha => ?_, ⟨_, rfl⟩⟩
  cases ha
  exact ⟨fun _ => ⟨rfl, rfl⟩, fun _ => rfl⟩
theorem test_witness_StepFollowsGraph :
    Consistent polling ∧ polling.nextCycle.pins.rst = false ∧ ∃ t, step polling = .next t :=
  ⟨polling_consistent, rfl, ⟨_, rfl⟩⟩
theorem test_witness_ReadRegister : 22 ≤ (22 : BitVec 5).toNat ∧ 22 ≤ (31 : BitVec 5).toNat := by decide
theorem test_witness_ReadIdle : State.reset.st = .idle := rfl
theorem test_witness_WriteOperandRegister : State.reset.st = .idle ∧
    ((7 : BitVec 5) = 7 ∧ 22 ≤ (22 : BitVec 5).toNat ∧ 22 ≤ (31 : BitVec 5).toNat) := by decide
theorem test_witness_WriteWhileBusy : (at' .tSel 1 Pins.quiet).st ≠ .idle ∧ (0 : BitVec 5) ≠ 1 ∧ (31 : BitVec 5) ≠ 1 := by
  decide
theorem test_witness_WriteCmd : State.reset.st = .idle ∧ (0x10 : Word) &&& 0xF = 0 ∧ 13 ≤ ((13 : Word) &&& 0xF).toNat ∧
    13 ≤ ((0xFFFFFFFF : Word) &&& 0xF).toNat := by decide
theorem test_witness_OperationAccepted : State.reset.st = .idle ∧ State.reset.cfg.getLsbD 0 = false ∧
    (let s : State := { State.reset with cfg := 1, extref := 1 }; s.st = .idle ∧ 0 < s.extref.toInt) := by decide
theorem test_witness_ConfigCheckRefuses :
    (let s : State := { State.reset with cfg := 1 }; s.st = .idle ∧ s.cfg.getLsbD 0 = true ∧ s.extref.toInt ≤ 0) ∧
    (let s : State := { State.reset with cfg := 1, extref := 0xFFFFFFFF }
     s.st = .idle ∧ s.cfg.getLsbD 0 = true ∧ s.extref.toInt ≤ 0) := by decide
theorem test_witness_HostErrorExactly : (Instr.wr 22 0).wf = true ∧ ∃ t, exec (.wr 22 0) State.reset = .next t :=
  ⟨rfl, _, rfl⟩
theorem test_witness_BusyFreezesOperands : (at' .tSel 1 Pins.quiet).st ≠ .idle ∧
    ∃ t, exec (.wr 2 5) (at' .tSel 1 Pins.quiet) = .next t := ⟨by decide, _, rfl⟩
theorem test_witness_RequestOutputs : (at' .tSel 1 bad).st = .tSel ∧ (at' .tRst 7 bad).st = .tRst ∧
    (at' .tCfg 7 bad).st = .tCfg ∧ (at' .tStart 7 bad).st = .tStart ∧ (at' .tPoll 7 bad).st = .tPoll ∧
    (at' .tRead 7 bad).st = .tRead ∧ (at' .wDelay 7 bad).st = .wDelay := by decide
theorem test_witness_RequestHeld : (at' .tRead 6 Pins.quiet).tReqOut = true ∧ (at' .tRead 6 Pins.quiet).pins.ack = false ∧
    ∃ t, exec (.wr 0 1) (at' .tRead 6 Pins.quiet) = .next t := ⟨rfl, rfl, _, rfl⟩

theorem test_witness_SelectTransaction :
    ((at' .tSel 1 Pins.quiet).st = .tSel ∧ (at' .tSel 1 Pins.quiet).pins.ack = false) ∧
    ((at' .tSel 1 (ok 0)).pins.ack = true ∧ (at' .tSel 1 (ok 0)).pins.err = false) ∧
    ((at' .tSel 1 bad).pins.ack = true ∧ (at' .tSel 1 bad).pins.err = true) := by decide
theorem test_witness_ResetTransaction :
    ((at' .tRst 2 Pins.quiet).st = .tRst ∧ (at' .tRst 2 Pins.quiet).pins.ack = false) ∧
    ((at' .tRst 2 bad).pins.ack = true ∧ (at' .tRst 2 bad).pins.err = true) ∧
    ((at' .tRst 2 (ok 0)).pins.err = false ∧ (at' .tRst 2 (ok 0)).cmd ≠ 7) ∧
    ((at' .tRst 7 (ok 0)).pins.err = false ∧ (at' .tRst 7 (ok 0)).cmd = 7) := by decide
theorem test_witness_ConfigTransaction :
    ((at' .tCfg 3 Pins.quiet).st = .tCfg ∧ (at' .tCfg 3 Pins.quiet).pins.ack = false) ∧
    ((at' .tCfg 3 bad).pins.ack = true ∧ (at' .tCfg 3 bad).pins.err = true) ∧
    ((at' .tCfg 3 (ok 0)).pins.err = false ∧ (at' .tCfg 3 (ok 0)).cmd ≠ 7) ∧
    ((at' .tCfg 7 (ok 0)).pins.err = false ∧ (at' .tCfg 7 (ok 0)).cmd = 7) := by decide
theorem test_witness_StartTransaction :
    ((at' .tStart 4 Pins.quiet).st = .tStart ∧ (at' .tStart 4 Pins.quiet).pins.ack = false) ∧
    ((at' .tStart 4 bad).pins.ack = true ∧ (at' .tStart 4 bad).pins.err = true) ∧
    ((at' .tStart 4 (ok 0)).pins.err = false ∧ (at' .tStart 4 (ok 0)).cmd ≠ 7) ∧
    ((at' .tStart 7 (ok 0)).pins.err = false ∧ (at' .tStart 7 (ok 0)).cmd = 7) := by decide
/-- The clauses of the status read: not acknowledged, failed, ready, timeout at the deadline exactly, one microsecond
before it with POLLUS 0 and with POLLUS not 0. -/
theorem test_witness_PollTransaction :
    ((at' .tPoll 5 tick).st = .tPoll ∧ (at' .tPoll 5 tick).pins.ack = false) ∧
    ((at' .tPoll 5 bad).pins.ack = true ∧ (at' .tPoll 5 bad).pins.err = true) ∧
    ((at' .tPoll 5 (ok 0x80)).pins.err = false ∧ (at' .tPoll 5 (ok 0x80)).pins.rdata.getLsbD 7 = true) ∧
    (let s := { at' .tPoll 7 (ok 0x7F) with maxwait := 1, elapsed := 1000 }
     s.pins.rdata.getLsbD 7 = false ∧ s.maxwait.toNat * 1000 ≤ s.elapsed.toNat) ∧
    (let s := { at' .tPoll 7 (ok 0x7F) with maxwait := 1, elapsed := 999, pollus := 0 }
     s.pins.rdata.getLsbD 7 = false ∧ s.elapsed.toNat < s.maxwait.toNat * 1000 ∧ s.pollus = 0) ∧
    (let s := { at' .tPoll 7 (ok 0x7F) with maxwait := 1, elapsed := 999, pollus := 1 }
     s.elapsed.toNat < s.maxwait.toNat * 1000 ∧ s.pollus ≠ 0) := by decide
theorem test_witness_DelayEdge :
    ((delaying 1).st = .wDelay ∧ (delaying 1).pins.tick = true ∧ (delaying 1).dl.toNat ≤ 1) ∧
    ((delaying 2).pins.tick = true ∧ 1 < (delaying 2).dl.toNat) ∧
    ((at' .wDelay 5 Pins.quiet).st = .wDelay ∧ (at' .wDelay 5 Pins.quiet).pins.tick = false) := by decide
theorem test_witness_ReadTransaction :
    ((at' .tRead 6 Pins.quiet).st = .tRead ∧ (at' .tRead 6 Pins.quiet).pins.ack = false) ∧
    ((at' .tRead 6 bad).pins.ack = true ∧ (at' .tRead 6 bad).pins.err = true) ∧
    ((at' .tRead 6 (ok 0)).pins.ack = true ∧ (at' .tRead 6 (ok 0)).pins.err = false) := by decide
theorem test_witness_OwnTransactionIsTheEdge :
    (at' .tRead 6 (ok 0)).request = some ⟨.readWord, 0x10, 0⟩ ∧ decode (.treq 0x41000) = .ok (.tReadWord 0x10 0) ∧
    (PortWord.treq 0x41000 = .treq (TOp.readWord.code ++ (0x10 : Byte) ++ (0 : Byte))) := by decide
theorem test_witness_TransportErrorEnds :
    (at' .tPoll 7 { bad with tick := true }).tReqOut = true ∧ (at' .tPoll 7 { bad with tick := true }).pins.ack = true ∧
    (at' .tPoll 7 { bad with tick := true }).pins.err = true := by decide
theorem test_witness_ResponseIgnored :
    (encode (.rd 0 0)).isHost = true ∧ (at' .idle 0 bad).tReqOut = false ∧
    (at' .tSel 1 Pins.quiet).pins.ack = false ∧ (∃ t, exec (.rd 0 0) (at' .idle 0 bad) = .next t) :=
  ⟨rfl, rfl, rfl, _, rfl⟩
theorem test_witness_OtherMasterTransaction :
    (at' .idle 0 (ok 0)).tReqOut = false ∧ (at' .wDelay 5 (ok 0)).tReqOut = false ∧
    (at' .scExec 8 (ok 0)).tReqOut = false ∧ (encode .dvReset).isHost = false ∧ (at' .wDelay 5 (ok 0)).pins.ack = true ∧
    (at' .wDelay 5 (ok 0)).pins.err = false ∧ (at' .idle 0 bad).pins.err = true ∧
    (at' .idle 0 Pins.quiet).pins.ack = false := by decide
theorem test_witness_ReadConfigCommand :
    (at' .wDelay 5 (ok 0x70)).tReqOut = false ∧ (at' .wDelay 5 (ok 0x70)).pins.ack = true ∧
    (at' .wDelay 5 (ok 0x70)).pins.err = false ∧
    (let s : State := { at' .wDelay 5 (ok 0x70) with selected := some 255 }; s.configOpen s.target.toNat = false) ∧
    (let s : State := { at' .wDelay 5 (ok 0x70) with selected := some 255, devOpen := [(255, 1)] }
     s.configOpen s.target.toNat = true) ∧
    (at' .idle 0 bad).pins.err = true ∧ (at' .idle 0 Pins.quiet).pins.ack = false := by decide
theorem test_witness_OtherMasterWhileBusy :
    (at' .tSel 1 (ok 0)).tReqOut = true ∧ decode (.treq (TOp.readByte.code ++ (0x24 : Byte) ++ (0 : Byte))) =
      .ok (.tReadByte 0x24 0) ∧ (at' .tSel 1 (ok 0)).request ≠ some ⟨.readByte, 0x24, 0⟩ := by decide

/-- The clauses of the five results: the smallest external reference, the largest that is refused; each range test at the
last value that fits and the first that does not (sections 2.4 to 2.8). -/
theorem test_witness_Code2v : State.reset.st = .idle ∧ State.reset.cfg.getLsbD 0 = false ∧
    (let s : State := { State.reset with cfg := 1, extref := 0 }; s.cfg.getLsbD 0 = true ∧ s.extref.toInt ≤ 0) ∧
    (let s : State := { State.reset with cfg := 1, extref := 1 }; s.cfg.getLsbD 0 = true ∧ 0 < s.extref.toInt) := by
  decide
theorem test_witness_V2in : State.reset.st = .idle ∧ State.reset.fegain = 0 ∧
    (let s : State := { State.reset with volts := 0x80000000, fegain := 16777216 }
     s.fegain ≠ 0 ∧ Int.tdiv (s.volts.toInt * 16777216) s.fegain.toInt = -2147483648) ∧
    (let s : State := { State.reset with volts := 33554432, fegain := 262144 }
     s.fegain ≠ 0 ∧ 2147483647 < Int.tdiv (s.volts.toInt * 16777216) s.fegain.toInt) := by decide
theorem test_witness_Dcal : State.reset.st = .idle ∧ State.reset.calhiPh = State.reset.calloPh ∧
    (let s : State := { State.reset with calloPh := 67108864, calloV := 2852127, calhiPh := 67108865, calhiV := 2852128 }
     let slope := Int.tdiv ((s.calhiV.toInt - s.calloV.toInt) * 16777216) (s.calhiPh.toInt - s.calloPh.toInt)
     s.calhiPh ≠ s.calloPh ∧ slope = 16777216 ∧
       Int.tdiv ((117440512 - s.calloPh.toInt) * slope) 16777216 + s.calloV.toInt = 53183775) ∧
    (let s : State := { State.reset with calhiPh := 1, calhiV := 128 }
     s.calhiPh ≠ s.calloPh ∧
       2147483647 < Int.tdiv ((s.calhiV.toInt - s.calloV.toInt) * 16777216) (s.calhiPh.toInt - s.calloPh.toInt)) := by
  decide
theorem test_witness_V2ph : State.reset.st = .idle ∧ State.reset.calv = false ∧
    (let s : State := { State.reset with calv := true }; s.calv = true ∧ s.slope = 0) ∧
    (let s : State := { State.reset with calv := true, slope := 16777216, vinput := 2030043135 }
     s.slope ≠ 0 ∧ 117440512 + Int.tdiv ((s.vinput.toInt - s.v7.toInt) * 16777216) s.slope.toInt = 2147483647) ∧
    (let s : State := { State.reset with calv := true, slope := 16777216, vinput := 2030043136 }
     s.slope ≠ 0 ∧ 2147483647 < 117440512 + Int.tdiv ((s.vinput.toInt - s.v7.toInt) * 16777216) s.slope.toInt) := by
  decide
theorem test_witness_V2phu : State.reset.st = .idle ∧ State.reset.thslope ≠ 0 ∧
    ({ State.reset with thslope := 0 } : State).thslope = 0 ∧
    (let s : State := { State.reset with thslope := 16777216, vinput := 2030043135 }
     s.thslope ≠ 0 ∧ 117440512 + Int.tdiv (s.vinput.toInt * 16777216) s.thslope.toInt = 2147483647) ∧
    (let s : State := { State.reset with thslope := 16777216, vinput := 2030043136 }
     s.thslope ≠ 0 ∧ 2147483647 < 117440512 + Int.tdiv (s.vinput.toInt * 16777216) s.thslope.toInt) := by decide
theorem test_witness_ScEndsAtNextEdge :
    (at' .scExec 8 Pins.quiet).st = .scExec ∧ 8 ≤ (at' .scExec 8 Pins.quiet).cmd.toNat ∧
    (at' .scExec 12 Pins.quiet).cmd.toNat ≤ 12 ∧ ∃ t, exec (.tSelect 0 0) (at' .scExec 8 Pins.quiet) = .next t :=
  ⟨rfl, by decide, by decide, _, rfl⟩
theorem test_witness_NoPartialResults : (at' .scExec 10 Pins.quiet).st = .scExec ∧
    after (exec (.rd 0 0) (at' .scExec 10 Pins.quiet)) State.outcome = some .errConfig := by decide
theorem test_witness_Code2vFits : cfgOk 1 0x7FFFFFFF = true ∧ cfgOk 0 0 = true := by decide
theorem test_witness_FxRounding : (-3 : Int) ≠ 0 := by decide
theorem test_witness_TwoDivisionsAreOne : (0 : Int) < 4 := by decide
theorem test_witness_ExactPoints : (-964690 : Int) ≠ 0 := by decide
theorem test_witness_StandAloneOpsComplete :
    State.reset.st = .idle ∧ (ok 0x80).ack = true ∧ (ok 0x80).err = false ∧ (ok 0x80).rdata.getLsbD 7 = true ∧
    cfgOk State.reset.cfg State.reset.extref = true := by decide
theorem test_witness_CaptureRuns :
    State.reset.st = .idle ∧ cfgOk State.reset.cfg State.reset.extref = true ∧
    (∀ p ∈ [ok 0, ok 0, ok 0, ok 0x80, ok 0x1234], p.ack = true ∧ p.err = false) ∧
    (ok 0x80).rdata.getLsbD 7 = true := by decide
theorem test_witness_DelayCountsTicks :
    (delaying 1).st = .wDelay ∧ 1 ≤ (delaying 1).dl.toNat ∧
    ([Pins.quiet].filter (fun p => p.tick)).length < (delaying 1).dl.toNat ∧
    ([tick, Pins.quiet].filter (fun p => p.tick)).length + 1 = (delaying 2).dl.toNat ∧ tick.tick = true := by decide
theorem test_witness_ResultWriters : Consistent polling ∧ (Instr.rd 0 0).wf = true ∧ ∃ t, exec (.rd 0 0) polling = .next t :=
  ⟨polling_consistent, rfl, _, rfl⟩
theorem test_witness_InertConfigBits : (0x0E : Byte) &&& 0xF1#8 = State.reset.cfg &&& 0xF1#8 ∧ (2 : BitVec 5) ≠ 3 ∧
    (∃ t, exec (.rd 2 0) State.reset = .next t) ∧ ∃ t, exec (HostOp.wrcfg.instr 0) State.reset = .next t :=
  ⟨rfl, by decide, ⟨_, rfl⟩, _, rfl⟩
theorem test_witness_OperandsReadOnlyByTheirOp :
    (at' .tPoll 7 tick).st ≠ .tSel ∧ (at' .tPoll 7 tick).st ≠ .tCfg ∧ (at' .wDelay 7 tick).st ≠ .tPoll ∧
    ((at' .scExec 8 tick).st = .scExec ∧ (at' .scExec 8 tick).cmd = 8) ∧
    ((at' .scExec 9 tick).st = .scExec ∧ (at' .scExec 9 tick).cmd = 9) ∧
    (∀ k : BitVec 4, (k = 8 ∨ k = 9 ∨ k = 10 ∨ k = 11 ∨ k = 12) → ¬ (at' .tPoll 7 tick).cmd = k) ∧
    State.reset.st = .idle ∧ HostOp.dcal ≠ .wrcfg ∧ HostOp.dcal ≠ .capture := by decide
theorem test_witness_OperandsReadOnlyByTheirOp_issue :
    ∃ t, exec (HostOp.dcal.instr 0) State.reset = .next t := ⟨_, rfl⟩

end Sys2Proof.Tests
end

section
/-! PROOFS. What one edge without reset does, by the word of its cycle. -/

namespace Sys2Proof.Machine

/-- Without reset (R230), a word that decodes runs as its instruction (R12). -/
theorem step_of_decode_ok {s : State} {i : Instr} (hr : s.nextCycle.pins.rst = false)
    (hd : decode s.nextCycle.word = .ok i) : step s = exec i s.sampled := by
  simp [step, hr, hd]

/-- Without reset, a word that is no row of the table is refused by name (log 12). -/
theorem step_of_decode_error {s : State} {e : DecodeError} (hr : s.nextCycle.pins.rst = false)
    (hd : decode s.nextCycle.word = .error e) : step s = .refused .reservedWord := by
  simp [step, hr, hd]

/-- Settles O5: the two outcomes of the decoder, one lemma each; `State.sampled` is the state the statement writes
out. -/
theorem stepRunsDecoded : Obligations.StepRunsDecoded := by
  intro s hr
  exact ⟨fun _ hd => step_of_decode_ok hr hd, fun _ hd => step_of_decode_error hr hd⟩

end Sys2Proof.Machine
end

section
/-! PROOFS. What an edge can do to the block, said once: its sequencer runs, a command is written or a register is
written. -/

namespace Sys2Proof.Machine

/-- What an instruction does to the block: the sequencer's edge under the same tick, with HOSTERR, the record of `h_rdata`
and what is behind the port left free; a CMD write while idle; another register write while idle. -/
inductive BlockCase (i : Instr) (s t : State) : Prop where
  | edge (p : Pins) (e : Bool) (h : Word) (sel : Option Byte) (c o u : Memory) (hp : p.tick = s.pins.tick)
      (ht : t = { sequencer p s with
        hosterr := e, hRdata := h, selected := sel, devCfg := c, devOpen := o, devRun := u })
  | command (d : Word) (hb : s.st = .idle) (ht : t = latchRead 0 s (writeCmdReg d s))
  | register (n : BitVec 5) (d : Word) (hb : s.st = .idle) (hi : i = .wr n d)
      (ht : t = latchRead n s (s.writeReg n d))

theorem exec_blockCase {i : Instr} {s t : State} (h : exec i s = .next t) : BlockCase i s t := by
  cases exec_cases i s t h with
  | read n g hi ht => exact .edge s.pins _ _ _ _ _ _ rfl ht
  | status d hi ht => exact .edge s.pins _ _ _ _ _ _ rfl ht
  | lost n hb hn hi ht => exact .edge s.pins _ _ _ _ _ _ rfl ht
  | command d hb hi ht => exact .command d hb ht
  | register n d hb h0 h1 hi ht => exact .register n d hb hi ht
  | own r hr hi ht => exact .edge s.pins _ _ _ _ _ _ rfl ht
  | other r hr hi ht =>
    obtain ⟨sel, c, o, u, hend⟩ :=
      transactionEnd_frame r s.pins.err s.pins.rdata (sequencer (withoutAck s.pins) s)
    rw [hend] at ht
    split at ht <;> exact .edge (withoutAck s.pins) _ _ _ _ _ _ rfl ht

/-- While busy every edge is the sequencer's (R124). -/
theorem BlockCase.sequencer_of_busy {i : Instr} {s t : State} (h : BlockCase i s t) (hb : s.st ≠ .idle) :
    ∃ p e h sel c o u, t = { sequencer p s with
      hosterr := e, hRdata := h, selected := sel, devCfg := c, devOpen := o, devRun := u } := by
  cases h with
  | edge p e h sel c o u hp ht => exact ⟨p, e, h, sel, c, o, u, ht⟩
  | command d hi ht => exact absurd hi hb
  | register n d hi _ ht => exact absurd hi hb

end Sys2Proof.Machine
end

section
/-! PROOFS. The outcome of each operation of unit SC (R200 to R211): a result written and OUTCOME OK, or an error with
no result written (R197). -/

namespace Sys2Proof.Machine

theorem completeCode2v_cases (s : State) :
    (∃ v, completeCode2v s = complete .ok { s with volts := v }) ∨ completeCode2v s = raise .config s := by
  unfold completeCode2v
  split
  · exact .inl ⟨_, rfl⟩
  · exact .inr rfl

theorem completeV2in_cases (s : State) :
    (∃ v, completeV2in s = complete .ok { s with vinput := v }) ∨
    (∃ e, (e = .divZero ∨ e = .overflow) ∧ completeV2in s = raise e s) := by
  simp only [completeV2in]
  split
  · exact .inr ⟨_, .inl rfl, rfl⟩
  · split
    · exact .inl ⟨_, rfl⟩
    · exact .inr ⟨_, .inr rfl, rfl⟩

theorem completeDcal_cases (s : State) :
    (∃ a b, completeDcal s = complete .ok { s with slope := a, v7 := b, calv := true }) ∨
    (∃ e, (e = .config ∨ e = .overflow) ∧ completeDcal s = raise e { s with calv := false }) := by
  simp only [completeDcal]
  split
  · exact .inr ⟨_, .inl rfl, rfl⟩
  · split
    · split
      · exact .inl ⟨_, _, rfl⟩
      · exact .inr ⟨_, .inr rfl, rfl⟩
    · exact .inr ⟨_, .inr rfl, rfl⟩

theorem completeV2ph_cases (s : State) :
    (∃ v, completeV2ph s = complete .ok { s with ph := v }) ∨
    (∃ e, (e = .config ∨ e = .divZero ∨ e = .overflow) ∧ completeV2ph s = raise e s) := by
  simp only [completeV2ph]
  split
  · exact .inr ⟨_, .inl rfl, rfl⟩
  · split
    · exact .inr ⟨_, .inr (.inl rfl), rfl⟩
    · split
      · exact .inl ⟨_, rfl⟩
      · exact .inr ⟨_, .inr (.inr rfl), rfl⟩

theorem completeV2phu_cases (s : State) :
    (∃ v, completeV2phu s = complete .ok { s with phu := v }) ∨
    (∃ e, (e = .divZero ∨ e = .overflow) ∧ completeV2phu s = raise e s) := by
  simp only [completeV2phu]
  split
  · exact .inr ⟨_, .inl rfl, rfl⟩
  · split
    · exact .inl ⟨_, rfl⟩
    · exact .inr ⟨_, .inr rfl, rfl⟩

/-- What SC_EXEC computes for an operation (R200); an operation of unit CP has nothing to compute there. -/
def scResult (op : HostOp) (s : State) : State :=
  match op with
  | .code2v => completeCode2v s
  | .v2in => completeV2in s
  | .dcal => completeDcal s
  | .v2ph => completeV2ph s
  | .v2phu => completeV2phu s
  | .select | .devReset | .wrcfg | .start | .waitrdy | .rdraw | .capture => s

/-- The operation that CMD names is the one SC_EXEC computes (R200). -/
theorem scExec_of_currentOp {s : State} {op : HostOp} (h : s.currentOp = some op) : scExec s = scResult op s := by
  unfold State.currentOp at h
  unfold scExec
  rw [h]
  cases op <;> rfl

end Sys2Proof.Machine
end

section
/-! PROOFS. Consistency: the rules for an edge that touches nothing it speaks of, for an operation that ends, that moves
on and that is accepted; the sequencer's edges by FSM state; the step. -/

namespace Sys2Proof.Machine

/-- Consistency speaks of `st`, `dl`, CMD, STATUS's outcome fields, CFG, EXTREF, POLLUS and RAW only. -/
theorem Consistent.of_eq {s t : State} (h : Consistent s) (hst : t.st = s.st := by simp) (hdl : t.dl = s.dl := by simp)
    (hcmd : t.cmd = s.cmd := by simp) (hdone : t.done = s.done := by simp)
    (hout : t.outcome = s.outcome := by simp) (herr : t.errstep = s.errstep := by simp)
    (hcfg : t.cfg = s.cfg := by simp) (hext : t.extref = s.extref := by simp)
    (hpol : t.pollus = s.pollus := by simp) (hraw : t.raw = s.raw := by simp) : Consistent t := by
  have hop : t.currentOp = s.currentOp := by unfold State.currentOp; rw [hcmd]
  constructor <;> simp only [hop, hst, hdl, hcmd, hdone, hout, herr, hcfg, hext, hpol, hraw]
  exacts [h.inFlight, h.clearWhileBusy, h.noOutcome, h.ended, h.fresh, h.delay, h.checked, h.sentinel]

theorem currentOp_eq_some {s : State} {op : HostOp} : s.currentOp = some op ↔ s.cmd = op.code :=
  HostOp.ofCode_eq_some s.cmd op

theorem cap_iff {s : State} : s.cap = true ↔ s.currentOp = some .capture := by
  simp [State.cap, currentOp_eq_some]

/-- While busy CMD names an operation that may be in `st` (R181). -/
theorem Consistent.op_of_busy {s : State} (h : Consistent s) (hb : s.st ≠ .idle) :
    ∃ op, s.currentOp = some op ∧ mayBeIn op s.st = true :=
  h.inFlight.resolve_left hb

theorem Consistent.dl_eq_zero {s : State} (h : Consistent s) (hw : s.st ≠ .wDelay) : s.dl = 0 := by
  simpa [hw] using h.delay

/-- The operation in CMD has ended as R227 allows. -/
theorem Consistent.of_ended {t : State} {op : HostOp} (hop : t.currentOp = some op) (hst : t.st = .idle)
    (hdl : t.dl = 0) (hdone : t.done = true) (hend : canEnd op t.outcome t.errstep = true)
    (hraw : op = .capture → t.outcome = .timeout → t.raw = 0xFFFF) : Consistent t where
  inFlight := .inl hst
  clearWhileBusy hb := absurd hst hb
  noOutcome hd := by simp [hdone] at hd
  ended _ := ⟨op, hop, hend⟩
  fresh _ hd := by simp [hdone] at hd
  delay := by simp [hst, hdl]
  checked hb := absurd hst hb
  sentinel hc ho := hraw (Option.some.inj (hop.symm.trans hc)) ho

/-- The operation in flight ends without error. -/
theorem Consistent.complete_ok {s : State} (h : Consistent s) (hb : s.st ≠ .idle) (hw : s.st ≠ .wDelay) :
    Consistent (complete .ok s) := by
  obtain ⟨op, hop, -⟩ := h.op_of_busy hb
  obtain ⟨-, -, herr⟩ := h.clearWhileBusy hb
  refine .of_ended (op := op) hop rfl (h.dl_eq_zero hw) rfl ?_ (by simp)
  rw [complete_errstep, herr]
  cases op <;> rfl

/-- The operation in flight ends with an error that R227 gives it. -/
theorem Consistent.raised {s : State} (e : ErrorKind) (h : Consistent s) (hb : s.st ≠ .idle) (hw : s.st ≠ .wDelay)
    (hend : ∀ op, s.currentOp = some op → mayBeIn op s.st = true → canEnd op e.outcome (e.errstep .none) = true) :
    Consistent (raise e s) := by
  obtain ⟨op, hop, hin⟩ := h.op_of_busy hb
  obtain ⟨-, -, herr⟩ := h.clearWhileBusy hb
  refine .of_ended (op := op) hop rfl (h.dl_eq_zero hw) rfl ?_ ?_
  · rw [raise_outcome, raise_errstep, herr]; exact hend op hop hin
  · intro _ ho; cases e <;> simp [ErrorKind.outcome] at ho

/-- The operation in flight goes on to another state of its own. -/
theorem Consistent.moved {s t : State} (h : Consistent s) (hb : s.st ≠ .idle) (hbt : t.st ≠ .idle)
    (hin : ∀ op, s.currentOp = some op → mayBeIn op s.st = true → mayBeIn op t.st = true)
    (hdelay : if t.st = .wDelay then 1 ≤ t.dl.toNat ∧ t.dl.toNat ≤ t.pollus.toNat else t.dl = 0)
    (hcmd : t.cmd = s.cmd := by simp) (hdone : t.done = s.done := by simp)
    (hout : t.outcome = s.outcome := by simp) (herr : t.errstep = s.errstep := by simp)
    (hcfg : t.cfg = s.cfg := by simp) (hext : t.extref = s.extref := by simp) : Consistent t := by
  obtain ⟨op, hop, hop_in⟩ := h.op_of_busy hb
  obtain ⟨hd, ho, he⟩ := h.clearWhileBusy hb
  have hop' : t.currentOp = s.currentOp := by unfold State.currentOp; rw [hcmd]
  rw [hd] at hdone
  rw [ho] at hout
  rw [he] at herr
  exact {
    inFlight := .inr ⟨op, hop'.trans hop, hin op hop hop_in⟩
    clearWhileBusy := fun _ => ⟨hdone, hout, herr⟩
    noOutcome := fun _ => ⟨hout, herr⟩
    ended := fun hd' => by simp [hdone] at hd'
    fresh := fun hi => absurd hi hbt
    delay := hdelay
    checked := fun _ hc => by rw [hcfg, hext]; exact h.checked hb (by rwa [hop'] at hc)
    sentinel := fun _ ho' => by simp [hout] at ho' }

theorem served_consistent {s : State} (p : Pins) (h : Consistent s) : Consistent (served p s) := h.of_eq

/-- After an error-free transaction: CAPTURE moves on, any other operation ends. -/
theorem goOn_consistent {s : State} (next : State → State) (h : Consistent s) (hb : s.st ≠ .idle) (hw : s.st ≠ .wDelay)
    (hnext : s.currentOp = some .capture → Consistent (next s)) : Consistent (goOn next s) := by
  unfold goOn
  split
  · exact hnext (cap_iff.1 ‹_›)
  · exact h.complete_ok hb hw

/-- The step of R104 that fails in a transaction state; none in the other states. -/
def failingStep : St → ErrStep
  | .tSel => .select
  | .tRst => .reset
  | .tCfg => .wrcfg
  | .tStart => .start
  | .tPoll => .poll
  | .tRead => .read
  | .idle | .wDelay | .scExec => .none

theorem canEnd_failingStep (op : HostOp) (st : St) (hin : mayBeIn op st = true) (hn : failingStep st ≠ .none) :
    canEnd op .errTransport (failingStep st) = true := by
  revert hin hn
  cases op <;> cases st <;> decide

theorem busy_of_failingStep {st : St} (hn : failingStep st ≠ .none) : st ≠ .idle ∧ st ≠ .wDelay := by
  constructor <;> rintro rfl <;> exact hn rfl

/-- A transaction of the block that fails ends the operation with the step of R104. -/
theorem Consistent.transport_failed {s : State} (p : Pins) {k : ErrStep} (h : Consistent s)
    (hk : failingStep s.st = k) (hn : k ≠ .none) : Consistent (raise (.transport k) (served p s)) := by
  subst hk
  obtain ⟨hb, hw⟩ := busy_of_failingStep hn
  exact (served_consistent p h).raised _ (by simpa) (by simpa) fun op _ hin =>
    canEnd_failingStep op s.st (by simpa using hin) hn

/-- The edge of a transaction state: the request is held, the transaction fails, or the operation goes on (R177). -/
theorem goOn_edge_consistent {s : State} {p : Pins} {k : ErrStep} {next : State → State} (h : Consistent s)
    (hk : failingStep s.st = k) (hn : k ≠ .none)
    (hnext : s.currentOp = some .capture → Consistent (next (served p s))) :
    Consistent (if p.ack then
        if p.err then raise (.transport k) (served p s) else goOn next (served p s)
      else s) := by
  obtain ⟨hb, hw⟩ := busy_of_failingStep (hk ▸ hn)
  have hop : (served p s).currentOp = s.currentOp := by unfold State.currentOp; rw [served_cmd]
  split
  · split
    · exact h.transport_failed p hk hn
    · exact goOn_consistent _ (served_consistent p h) (by simpa) (by simpa) fun hc => hnext (hop ▸ hc)
  · exact h

/-- CAPTURE moves on to a state of its own that is not W_DELAY. -/
theorem Consistent.capture_moved {s t : State} (h : Consistent s) (hb : s.st ≠ .idle) (hw : s.st ≠ .wDelay)
    (hcap : s.currentOp = some .capture) (hbt : t.st ≠ .idle) (hwt : t.st ≠ .wDelay)
    (hin : mayBeIn .capture t.st = true) (hdl : t.dl = s.dl := by simp) (hcmd : t.cmd = s.cmd := by simp)
    (hdone : t.done = s.done := by simp) (hout : t.outcome = s.outcome := by simp)
    (herr : t.errstep = s.errstep := by simp) (hcfg : t.cfg = s.cfg := by simp)
    (hext : t.extref = s.extref := by simp) : Consistent t := by
  refine h.moved hb hbt (fun op hop _ => ?_) ?_ hcmd hdone hout herr hcfg hext
  · rw [hcap] at hop; cases hop; exact hin
  · rw [if_neg hwt, hdl, h.dl_eq_zero hw]

/-! The sequencer's edges -/

theorem edgeTSel_consistent {s : State} (p : Pins) (h : Consistent s) (hs : s.st = .tSel) :
    Consistent (edgeTSel p s) := by
  unfold edgeTSel
  split
  · split
    · exact h.transport_failed p (by rw [hs]; rfl) (by decide)
    · exact (served_consistent p h).complete_ok (by simp [hs]) (by simp [hs])
  · exact h

theorem edgeTRst_consistent {s : State} (p : Pins) (h : Consistent s) (hs : s.st = .tRst) :
    Consistent (edgeTRst p s) :=
  goOn_edge_consistent h (by rw [hs]; rfl) (by decide) fun hcap =>
    h.capture_moved (by simp [hs]) (by simp [hs]) hcap (by simp) (by simp) rfl

theorem edgeTCfg_consistent {s : State} (p : Pins) (h : Consistent s) (hs : s.st = .tCfg) :
    Consistent (edgeTCfg p s) :=
  goOn_edge_consistent h (by rw [hs]; rfl) (by decide) fun hcap =>
    h.capture_moved (by simp [hs]) (by simp [hs]) hcap (by simp) (by simp) rfl

theorem edgeTStart_consistent {s : State} (p : Pins) (h : Consistent s) (hs : s.st = .tStart) :
    Consistent (edgeTStart p s) :=
  goOn_edge_consistent h (by rw [hs]; rfl) (by decide) fun hcap =>
    h.capture_moved (by simp [hs]) (by simp [hs]) hcap (by simp) (by simp) rfl

theorem edgeTRead_consistent {s : State} (p : Pins) (h : Consistent s) (hs : s.st = .tRead) :
    Consistent (edgeTRead p s) := by
  unfold edgeTRead
  split
  · split
    · exact h.transport_failed p (by rw [hs]; rfl) (by decide)
    · -- RAW is written with OUTCOME NONE still in place, so the sentinel clause is not at stake.
      have hread : Consistent { served p s with raw := bswap16 p.rdata } :=
        h.moved (by simp [hs]) (by simp [hs]) (fun op _ hin => by simpa using hin)
          (by simpa [hs] using h.dl_eq_zero (by simp [hs]))
      exact hread.complete_ok (by simp [hs]) (by simp [hs])
  · exact h

/-- A polling edge that counts its tick touches ELAPSED only (R171). -/
theorem countTick_eq (p : Pins) (s : State) :
    countTick p s = { s with elapsed := if p.tick then tickElapsed s.elapsed else s.elapsed } := by
  unfold countTick
  split <;> rfl

theorem countTick_consistent {s : State} (p : Pins) (h : Consistent s) : Consistent (countTick p s) := by
  rw [countTick_eq]
  exact h.of_eq

/-- While polling the operation is WAITRDY or CAPTURE (R181). -/
theorem polling_op {op : HostOp} (h : mayBeIn op .tPoll = true) : op = .waitrdy ∨ op = .capture := by
  cases op <;> simp [mayBeIn] at h ⊢

/-- A status byte that is not ready: a timeout, the next read or the delay (R178). -/
theorem notReady_consistent {s : State} (e : Word) (h : Consistent s) (hs : s.st = .tPoll) :
    Consistent (notReady e s) := by
  obtain ⟨op, hop, hin⟩ := h.op_of_busy (by simp [hs])
  obtain ⟨-, -, herr⟩ := h.clearWhileBusy (by simp [hs])
  have hpoll := polling_op (hs ▸ hin)
  have hdl := h.dl_eq_zero (by simp [hs])
  have hend : canEnd op .timeout s.errstep = true := by
    rw [herr]
    rcases hpoll with rfl | rfl <;> rfl
  unfold notReady
  split
  · split
    · exact .of_ended (op := op) hop rfl hdl rfl hend fun _ _ => rfl
    · rename_i hcap
      exact .of_ended (op := op) hop rfl hdl rfl hend fun hc => absurd (cap_iff.2 (hc ▸ hop)) hcap
  · split
    · exact h
    · rename_i hpol
      have hpos : s.pollus.toNat ≠ 0 := fun h0 => hpol (BitVec.eq_of_toNat_eq h0)
      refine h.moved (by simp [hs]) (by simp) (fun o ho _ => ?_) ?_
      · rw [hop] at ho
        cases ho
        rcases hpoll with rfl | rfl <;> rfl
      · simp
        omega

theorem statusRead_consistent {s : State} (b : Byte) (e : Word) (h : Consistent s) (hs : s.st = .tPoll) :
    Consistent (statusRead b e s) := by
  have hread : Consistent { s with stshadow := b } := h.of_eq
  simp only [statusRead]
  split
  · refine goOn_consistent _ hread (by simp [hs]) (by simp [hs]) fun hcap => ?_
    exact hread.capture_moved (by simp [hs]) (by simp [hs]) hcap (by simp) (by simp) rfl
  · exact notReady_consistent e hread hs

theorem edgeTPoll_consistent {s : State} (p : Pins) (h : Consistent s) (hs : s.st = .tPoll) :
    Consistent (edgeTPoll p s) := by
  have htick := countTick_consistent p h
  have hst : (countTick p s).st = .tPoll := by rw [countTick_eq]; exact hs
  simp only [edgeTPoll]
  split
  · split
    · exact htick.transport_failed p (by rw [hst]; rfl) (by decide)
    · exact statusRead_consistent _ _ (served_consistent p htick) (by simpa using hst)
  · exact htick

theorem edgeWDelay_consistent {s : State} (p : Pins) (h : Consistent s) (hs : s.st = .wDelay) :
    Consistent (edgeWDelay p s) := by
  have hdelay := h.delay
  rw [if_pos hs] at hdelay
  obtain ⟨hlo, hhi⟩ := hdelay
  have hpoll : ∀ op, mayBeIn op s.st = true → mayBeIn op .tPoll = true ∧ mayBeIn op .wDelay = true := by
    intro op; rw [hs]; cases op <;> decide
  simp only [edgeWDelay, countTick_eq]
  split
  · split
    · exact h.moved (by simp [hs]) (by simp) (fun op _ hin => (hpoll op hin).1) (by simp)
    · refine h.moved (by simp [hs]) (by simp [hs]) (fun op _ hin => hin) ?_
      rw [if_pos hs]
      dsimp only
      rw [BitVec.toNat_sub_of_le] <;> bv_omega
  · exact h

/-- An operation of unit SC ends with an error that R227 gives it. -/
theorem Consistent.sc_raised {s : State} {op : HostOp} (e : ErrorKind) (h : Consistent s) (hs : s.st = .scExec)
    (hop : s.currentOp = some op) (hend : canEnd op e.outcome (e.errstep .none) = true) : Consistent (raise e s) :=
  h.raised e (by simp [hs]) (by simp [hs]) fun o ho _ => by
    rw [hop] at ho
    cases ho
    exact hend

theorem scExec_consistent {s : State} (h : Consistent s) (hs : s.st = .scExec) : Consistent (scExec s) := by
  have hb : s.st ≠ .idle := by simp [hs]
  have hw : s.st ≠ .wDelay := by simp [hs]
  obtain ⟨op, hop, -⟩ := h.op_of_busy hb
  rw [scExec_of_currentOp hop]
  cases op <;> dsimp only [scResult]
  case code2v =>
    obtain ⟨v, he⟩ | he := completeCode2v_cases s <;> rw [he]
    · exact h.of_eq.complete_ok hb hw
    · exact h.sc_raised _ hs hop rfl
  case v2in =>
    obtain ⟨v, he⟩ | ⟨e, hk, he⟩ := completeV2in_cases s <;> rw [he]
    · exact h.of_eq.complete_ok hb hw
    · exact h.sc_raised e hs hop (by rcases hk with rfl | rfl <;> rfl)
  case dcal =>
    obtain ⟨a, b, he⟩ | ⟨e, hk, he⟩ := completeDcal_cases s <;> rw [he]
    · exact h.of_eq.complete_ok hb hw
    · exact Consistent.sc_raised e h.of_eq hs hop (by rcases hk with rfl | rfl <;> rfl)
  case v2ph =>
    obtain ⟨v, he⟩ | ⟨e, hk, he⟩ := completeV2ph_cases s <;> rw [he]
    · exact h.of_eq.complete_ok hb hw
    · exact h.sc_raised e hs hop (by rcases hk with rfl | rfl | rfl <;> rfl)
  case v2phu =>
    obtain ⟨v, he⟩ | ⟨e, hk, he⟩ := completeV2phu_cases s <;> rw [he]
    · exact h.of_eq.complete_ok hb hw
    · exact h.sc_raised e hs hop (by rcases hk with rfl | rfl <;> rfl)
  all_goals exact h

theorem sequencer_consistent {s : State} (p : Pins) (h : Consistent s) : Consistent (sequencer p s) := by
  unfold sequencer
  split
  · exact h
  · exact edgeTSel_consistent p h ‹_›
  · exact edgeTRst_consistent p h ‹_›
  · exact edgeTCfg_consistent p h ‹_›
  · exact edgeTStart_consistent p h ‹_›
  · exact edgeTPoll_consistent p h ‹_›
  · exact edgeWDelay_consistent p h ‹_›
  · exact edgeTRead_consistent p h ‹_›
  · exact scExec_consistent h ‹_›

/-- A CMD write while idle issues an operation, ends it at once, or is a host error (R126). -/
theorem writeCmdReg_consistent {s : State} (d : Word) (h : Consistent s) (hs : s.st = .idle) :
    Consistent (writeCmdReg d s) := by
  have hdl := h.dl_eq_zero (by simp [hs])
  obtain ⟨-, he⟩ | ⟨op, -, ⟨hop, -, he⟩ | ⟨hok, he⟩⟩ := writeCmdReg_cases d s <;> rw [he]
  · exact h.of_eq
  · refine .of_ended (op := op) (currentOp_eq_some.2 rfl) rfl hdl rfl ?_ (by simp [ErrorKind.outcome])
    rcases hop with rfl | rfl <;> rfl
  · have hfirst : firstState op ≠ .idle ∧ firstState op ≠ .wDelay ∧ mayBeIn op (firstState op) = true := by
      cases op <;> decide
    obtain ⟨hb, hw, hin⟩ := hfirst
    have hop : HostOp.ofCode op.code = some op := HostOp.ofCode_code op
    exact {
      inFlight := .inr ⟨op, hop, hin⟩
      clearWhileBusy := fun _ => ⟨rfl, rfl, rfl⟩
      noOutcome := fun _ => ⟨rfl, rfl⟩
      ended := fun hd => by simp at hd
      fresh := fun hi => absurd hi hb
      delay := by simp [hw, hdl]
      checked := fun _ hc => hok (by simpa [State.currentOp] using hc)
      sentinel := fun _ ho => by simp at ho }

/-- A register write while idle: none of the registers it can change is spoken of while idle. -/
theorem writeReg_consistent {s : State} (n : BitVec 5) (d : Word) (h : Consistent s) (hs : s.st = .idle) :
    Consistent (s.writeReg n d) := by
  have hop : (s.writeReg n d).currentOp = s.currentOp := by unfold State.currentOp; rw [writeReg_cmd]
  constructor <;> simp only [hop, hs, writeReg_st, writeReg_dl, writeReg_cmd, writeReg_done, writeReg_outcome,
    writeReg_errstep, writeReg_raw]
  · exact .inl trivial
  · exact fun hb => absurd rfl hb
  · exact h.noOutcome
  · exact h.ended
  · exact fun _ => h.fresh hs
  · exact h.dl_eq_zero (by simp [hs])
  · exact fun hb => absurd rfl hb
  · exact h.sentinel

theorem reset_consistent : Consistent State.reset where
  inFlight := .inl rfl
  clearWhileBusy hb := absurd rfl hb
  noOutcome _ := ⟨rfl, rfl⟩
  ended hd := by cases hd
  fresh _ _ := rfl
  delay := rfl
  checked hb := absurd rfl hb
  sentinel _ ho := by cases ho

theorem resetEdge_consistent (w : PortWord) (s : State) : Consistent (resetEdge w s) :=
  reset_consistent.of_eq rfl rfl rfl rfl rfl rfl rfl rfl rfl rfl

theorem exec_consistent {i : Instr} {s t : State} (h : Consistent s) (ht : exec i s = .next t) : Consistent t := by
  cases exec_blockCase ht with
  | edge p e r sel c o u hp ht => rw [ht]; exact (sequencer_consistent p h).of_eq
  | command d hb ht => rw [ht]; exact (writeCmdReg_consistent d h hb).of_eq
  | register n d hb hi ht => rw [ht]; exact (writeReg_consistent n d h hb).of_eq

/-- Settles O11: a reset edge gives the reset values, any other edge keeps the invariant by `exec_consistent`. -/
theorem stepKeepsConsistent : Obligations.StepKeepsConsistent := by
  intro s t h ht
  obtain ⟨-, rfl⟩ | ⟨-, i, -, hi⟩ := step_cases s t ht
  · exact resetEdge_consistent _ _
  · exact exec_consistent (s := s.sampled) h.of_eq hi

end Sys2Proof.Machine
end

section
/-! PROOFS. The reset edge and the reset state (R52, R253, R260), and the request outputs (R65). -/

namespace Sys2Proof.Machine

/-- An edge with `rst = 1` is the reset edge (R20, R250). -/
theorem step_of_rst {s : State} (hr : s.nextCycle.pins.rst = true) :
    step s = .next (resetEdge s.nextCycle.word s.sampled) := by simp [step, hr]

/-- The host reads the reset values after a reset edge: they are the block's own registers (R52, R120). -/
theorem readReg_resetEdge (w : PortWord) (s : State) (n : BitVec 5) :
    (resetEdge w s).readReg n = State.reset.readReg n := rfl

theorem readReg_reset (n : BitVec 5) :
    State.reset.readReg n = if n = 5 ∨ n = 6 then 1000 else if n = 17 then 0xFFF0D845 else 0 := by
  revert n; decide

/-- Settles O8: every register, output and field of `resetEdge` but the environment is that of `State.reset`. -/
theorem resetEdgeRegisters : Obligations.ResetEdge := by
  intro s hr
  refine ⟨_, step_of_rst hr, rfl, rfl, fun n => ?_, rfl, rfl, rfl, rfl, rfl, rfl, rfl, rfl, rfl, rfl, rfl, rfl, rfl⟩
  rw [readReg_resetEdge, readReg_reset]

/-- A reset that withdraws a request leaves the target open (R253, log 10). -/
theorem withdrawn_of_request {s : State} (w : PortWord) (h : s.tReqOut = true) : withdrawn w s = forgetDevice s := by
  have hreq : s.request.isSome = true := h
  simp [withdrawn, hreq]

/-- With no request outstanding a reset in a host port cycle does nothing behind the port (log 10). -/
theorem withdrawn_of_no_request {s : State} {w : PortWord} (h : s.tReqOut = false) (hw : w.isHost = true) :
    withdrawn w s = s := by
  have hreq : s.request.isSome = false := h
  simp [withdrawn, hreq, hw]

/-- Settles O9: what the reset edge leaves of the devices is what `withdrawn` leaves of them. -/
theorem resetAndTheDevice : Obligations.ResetAndTheDevice := by
  intro s t hr ht
  rw [step_of_rst hr] at ht
  cases ht
  refine ⟨rfl, fun hreq => ?_, fun hreq hw => ?_⟩
  · have hwd : withdrawn s.nextCycle.word s.sampled = forgetDevice s.sampled := withdrawn_of_request _ hreq
    refine (forgetDevice_forgotten s.sampled).of_eq ?_ ?_ ?_ <;> simp only [resetEdge, hwd]
  · have hwd : withdrawn s.nextCycle.word s.sampled = s.sampled := withdrawn_of_no_request hreq hw
    refine .of_eq ?_ ?_ ?_ <;> simp [resetEdge, hwd]

/-- No operation is named by CMD at reset, so the order of CAPTURE is not at stake. -/
theorem reset_captureOrder : CaptureOrder State.reset := fun hop => by cases hop

/-- Settles O10, from one lemma per invariant. -/
theorem resetIsSound : Obligations.ResetIsSound :=
  ⟨reset_consistent, reset_memoryForm, reset_captureOrder⟩

/-- The request outputs are those of the request driven (R23, R65). -/
theorem outputs_of_request {s : State} {r : TReq} (h : s.request = some r) :
    s.tReqOut = true ∧ s.tOpOut = r.op.code ∧ s.tAOut = r.a ∧ s.tBOut = r.b := by
  simp [State.tReqOut, State.tOpOut, State.tAOut, State.tBOut, h]

theorem outputs_of_no_request {s : State} (h : s.request = none) :
    s.tReqOut = false ∧ s.tOpOut = 0 ∧ s.tAOut = 0 ∧ s.tBOut = 0 := by
  simp [State.tReqOut, State.tOpOut, State.tAOut, State.tBOut, h]

/-- No request is driven in IDLE, W_DELAY and SC_EXEC, and only there. -/
theorem request_eq_none {s : State} : s.request = none ↔ s.st = .idle ∨ s.st = .wDelay ∨ s.st = .scExec := by
  cases hs : s.st <;> simp [State.request, hs]

/-- Settles O25: the request of each state, read off by the outputs. -/
theorem requestOutputs : Obligations.RequestOutputs := by
  intro s
  refine ⟨?_, ?_, ?_, ?_, ?_, ?_, fun hs => outputs_of_no_request (request_eq_none.2 hs)⟩ <;> intro hs
  · exact outputs_of_request (r := ⟨.select, s.addr, 0⟩) (by simp [State.request, hs])
  · exact outputs_of_request (r := ⟨.writeCmd, cmdReset, 0⟩) (by simp [State.request, hs])
  · exact outputs_of_request (r := ⟨.writeCmdData, cmdWconfig, cfgSent s.cfg⟩) (by simp [State.request, hs])
  · exact outputs_of_request (r := ⟨.writeCmd, cmdStart, 0⟩) (by simp [State.request, hs])
  · exact outputs_of_request (r := ⟨.readByte, cmdRstatus, 0⟩) (by simp [State.request, hs])
  · exact outputs_of_request (r := ⟨.readWord, cmdRdata, 0⟩) (by simp [State.request, hs])

end Sys2Proof.Machine
end

section
/-! PROOFS. HOSTERR, instruction by instruction (R125). -/

namespace Sys2Proof.Machine

/-! WR, one equation per case (R121) -/

theorem exec_wr_status (d : Word) (s : State) :
    exec (.wr 1 d) s = .next (latchRead 1 s ((sequencer s.pins s).writeStatus d)) := rfl

theorem exec_wr_busy {n : BitVec 5} (d : Word) {s : State} (hn : n ≠ 1) (hb : s.st ≠ .idle) :
    exec (.wr n d) s = .next (latchRead n s (sequencer s.pins s).hostError) := by
  simp only [exec, execWr, writeEdge_busy _ _ _ hb, ite_self]
  exact if_neg hn

theorem exec_wr_cmd (d : Word) {s : State} (hb : s.st = .idle) :
    exec (.wr 0 d) s = .next (latchRead 0 s (writeCmdReg d s)) :=
  congrArg _ (writeEdge_idle 0 _ s hb)

theorem exec_wr_register {n : BitVec 5} (d : Word) {s : State} (h1 : n ≠ 1) (h0 : n ≠ 0) (hb : s.st = .idle) :
    exec (.wr n d) s = .next (latchRead n s (s.writeReg n d)) := by
  simp only [exec, execWr, writeEdge_idle _ _ _ hb]
  exact (if_neg h1).trans (if_neg h0)

/-- A register write while idle is a host error exactly for the read-only and the reserved numbers (R123). -/
theorem writeReg_hosterr (n : BitVec 5) (d : Word) (s : State) (h0 : n ≠ 0) (h1 : n ≠ 1) :
    (s.writeReg n d).hosterr =
      if n = 0 ∨ n = 7 ∨ n = 8 ∨ n = 9 ∨ n = 15 ∨ n = 16 ∨ n = 20 ∨ n = 21 ∨ 22 ≤ n.toNat then true
      else s.hosterr := by
  have hlt := n.isLt
  simp only [← BitVec.toNat_inj, ne_eq] at h0 h1 ⊢
  generalize hk : n.toNat = k at *
  unfold State.writeReg
  interval_cases k <;> simp [hk, State.hostError] at h0 h1 ⊢

/-- A CMD write while idle is a host error exactly for the reserved op codes (R105, R126). -/
theorem writeCmdReg_hosterr (d : Word) (s : State) :
    (writeCmdReg d s).hosterr = if definedOpCode (d.extractLsb' 0 4) then s.hosterr else true := by
  rw [← HostOp.ofCode_isSome]
  obtain ⟨hop, he⟩ | ⟨op, hop, ⟨-, -, he⟩ | ⟨-, he⟩⟩ := writeCmdReg_cases d s <;> rw [he, hop] <;> simp [State.hostError]

/-- A WR to a register other than STATUS is a host error while busy, and while idle for a read-only or reserved number or
a reserved op code (R125). -/
theorem hosterr_of_wr {n : BitVec 5} {d : Word} {s t : State} (hwf : (Instr.wr n d).wf = true)
    (ht : exec (.wr n d) s = .next t) :
    t.hosterr =
      if n = 1 then s.hosterr && !d.getLsbD 9
      else if s.st ≠ .idle then true
      else if n = 0 ∨ n = 7 ∨ n = 8 ∨ n = 9 ∨ n = 15 ∨ n = 16 ∨ n = 20 ∨ n = 21 ∨ 22 ≤ n.toNat then true
      else s.hosterr := by
  by_cases h1 : n = 1
  · subst h1
    rw [exec_wr_status] at ht
    cases ht
    rw [if_pos rfl, latchRead_hosterr]
    simp [State.writeStatus]
  · rw [if_neg h1]
    by_cases hb : s.st = .idle
    · rw [if_neg (not_not.2 hb)]
      by_cases h0 : n = 0
      · subst h0
        have hres : definedOpCode (d.extractLsb' 0 4) = false := by simpa [Instr.wf] using hwf
        rw [exec_wr_cmd d hb] at ht
        cases ht
        simp [writeCmdReg_hosterr, hres]
      · rw [exec_wr_register d h1 h0 hb] at ht
        cases ht
        rw [latchRead_hosterr, writeReg_hosterr n d s h0 h1]
    · rw [exec_wr_busy d h1 hb] at ht
      cases ht
      rw [if_pos hb]
      rfl

/-- Issuing an operation is a host error while busy only (R124). -/
theorem hosterr_of_op (op : HostOp) (x : BitVec 28) {s t : State} (ht : exec (op.instr x) s = .next t) :
    t.hosterr = if s.st ≠ .idle then true else s.hosterr := by
  rw [exec_instr] at ht
  cases ht
  by_cases hb : s.st = .idle
  · have hdef : definedOpCode ((x ++ op.code).extractLsb' 0 4) = true := by
      rw [(cmdWord_fields x op.code).1, ← HostOp.ofCode_isSome, HostOp.ofCode_code]
      rfl
    rw [writeEdge_idle _ _ _ hb, latchRead_hosterr, writeCmdReg_hosterr, if_pos hdef, if_neg (not_not.2 hb)]
  · rw [writeEdge_busy _ _ _ hb, if_pos hb]
    rfl

/-- A transaction is no access to the host port. -/
theorem transactEdge_hosterr (r : TReq) (s : State) : (transactEdge r s).hosterr = s.hosterr := by
  simp only [transactEdge]
  (repeat' split) <;> simp

/-- Settles O23, instruction by instruction: a WR, an operation, a transaction. -/
theorem hostErrorExactly : Obligations.HostErrorExactly := by
  intro i s t hwf ht
  cases i with
  | rd n g => cases ht; exact sequencer_hosterr _ _
  | wr n d => exact hosterr_of_wr hwf ht
  | select x => exact hosterr_of_op .select x ht
  | devReset x => exact hosterr_of_op .devReset x ht
  | wrcfg x => exact hosterr_of_op .wrcfg x ht
  | start x => exact hosterr_of_op .start x ht
  | waitrdy x => exact hosterr_of_op .waitrdy x ht
  | rdraw x => exact hosterr_of_op .rdraw x ht
  | capture x => exact hosterr_of_op .capture x ht
  | code2v x => exact hosterr_of_op .code2v x ht
  | v2in x => exact hosterr_of_op .v2in x ht
  | dcal x => exact hosterr_of_op .dcal x ht
  | v2ph x => exact hosterr_of_op .v2ph x ht
  | v2phu x => exact hosterr_of_op .v2phu x ht
  | dvReset | dvStartSync | dvReadData | dvReadConfig | dvReadStatus | dvWriteConfig _ _
  | tSelect _ _ | tWriteCmd _ _ | tWriteCmdData _ _ | tReadByte _ _ | tReadWord _ _ =>
    cases ht
    exact transactEdge_hosterr _ s

end Sys2Proof.Machine
end

section
/-! PROOFS. Which edge writes a result register (R26, R40 to R48), and what a busy block keeps (R29). -/

namespace Sys2Proof.Machine

/-! The sequencer, result register by result register -/

/-- RAW is written in T_READ, and in T_POLL under CAPTURE (R172, R180). -/
theorem sequencer_raw {p : Pins} {s : State} (hr : s.st ≠ .tRead) (hp : s.st = .tPoll → s.cap = false) :
    (sequencer p s).raw = s.raw := by
  cases hs : s.st
  case idle => rw [sequencer_idle p s hs]
  case tRead => exact absurd hs hr
  case tPoll =>
    have hcap := hp hs
    rw [sequencer_tPoll p s hs]
    simp only [edgeTPoll, statusRead, notReady, goOn, countTick_eq]
    (repeat' split) <;> simp_all [State.cap]
  all_goals
    simp only [sequencer, hs, edgeTSel, edgeTRst, edgeTCfg, edgeTStart, edgeWDelay, countTick_eq, goOn, scExec,
      completeCode2v, completeV2in, completeDcal, completeV2ph, completeV2phu]
    (repeat' split) <;> simp

/-- STSHADOW is written in T_POLL (R178). -/
theorem sequencer_stshadow {p : Pins} {s : State} (hp : s.st ≠ .tPoll) : (sequencer p s).stshadow = s.stshadow := by
  cases hs : s.st
  case idle => rw [sequencer_idle p s hs]
  case tPoll => exact absurd hs hp
  all_goals
    simp only [sequencer, hs, edgeTSel, edgeTRst, edgeTCfg, edgeTStart, edgeWDelay, edgeTRead, countTick_eq, goOn,
      scExec, completeCode2v, completeV2in, completeDcal, completeV2ph, completeV2phu]
    (repeat' split) <;> simp

/-- ELAPSED counts ticks while polling, and CAPTURE clears it after its Start (R171, R177). -/
theorem sequencer_elapsed (p : Pins) (s : State) :
    (sequencer p s).elapsed = s.elapsed ∨ ((s.st = .tPoll ∨ s.st = .wDelay) ∧ p.tick = true) ∨
    (s.st = .tStart ∧ s.cap = true ∧ (sequencer p s).elapsed = 0) := by
  by_cases hpoll : (s.st = .tPoll ∨ s.st = .wDelay) ∧ p.tick = true
  · exact .inr (.inl hpoll)
  cases hs : s.st
  case idle => exact .inl (by rw [sequencer_idle p s hs])
  case tStart =>
    rw [sequencer_tStart p s hs]
    simp only [edgeTStart, goOn]
    (repeat' split) <;> simp_all [State.cap]
  case tPoll =>
    have hcount : countTick p s = s := by simp_all [countTick]
    rw [sequencer_tPoll p s hs]
    simp only [edgeTPoll, statusRead, notReady, goOn, hcount]
    (repeat' split) <;> simp
  case wDelay =>
    have htick : p.tick = false := by simpa [hs] using hpoll
    rw [sequencer_wDelay p s hs]
    simp [edgeWDelay, htick]
  all_goals
    refine .inl ?_
    simp only [sequencer, hs, edgeTSel, edgeTRst, edgeTCfg, edgeTRead, goOn, scExec, completeCode2v, completeV2in,
      completeDcal, completeV2ph, completeV2phu]
    (repeat' split) <;> simp

/-- Outside SC_EXEC no result of unit SC is written. -/
theorem sequencer_sc_frame (p : Pins) {s : State} (h : s.st ≠ .scExec) :
    (sequencer p s).slope = s.slope ∧ (sequencer p s).v7 = s.v7 ∧ (sequencer p s).calv = s.calv ∧
    (sequencer p s).volts = s.volts ∧ (sequencer p s).vinput = s.vinput ∧ (sequencer p s).ph = s.ph ∧
    (sequencer p s).phu = s.phu := by
  cases hs : s.st
  case scExec => exact absurd hs h
  all_goals
    simp only [sequencer, hs, edgeTSel, edgeTRst, edgeTCfg, edgeTStart, edgeTPoll, edgeWDelay, edgeTRead, statusRead,
      notReady, goOn, countTick_eq]
    (repeat' split) <;> simp

/-- The SC operation that writes a result, and its outcome: an error writes none (R197). -/
theorem scExec_writers {s : State} {op : HostOp} (h : s.currentOp = some op) :
    ((scExec s).slope ≠ s.slope ∨ (scExec s).v7 ≠ s.v7 → op = .dcal ∧ (scExec s).outcome = .ok) ∧
    ((scExec s).calv ≠ s.calv → op = .dcal) ∧
    ((scExec s).volts ≠ s.volts → op = .code2v ∧ (scExec s).outcome = .ok) ∧
    ((scExec s).vinput ≠ s.vinput → op = .v2in ∧ (scExec s).outcome = .ok) ∧
    ((scExec s).ph ≠ s.ph → op = .v2ph ∧ (scExec s).outcome = .ok) ∧
    ((scExec s).phu ≠ s.phu → op = .v2phu ∧ (scExec s).outcome = .ok) := by
  rw [scExec_of_currentOp h]
  cases op <;> dsimp only [scResult]
  case code2v => obtain ⟨v, he⟩ | he := completeCode2v_cases s <;> simp [he]
  case v2in => obtain ⟨v, he⟩ | ⟨e, -, he⟩ := completeV2in_cases s <;> simp [he]
  case dcal => obtain ⟨a, b, he⟩ | ⟨e, -, he⟩ := completeDcal_cases s <;> simp [he]
  case v2ph => obtain ⟨v, he⟩ | ⟨e, -, he⟩ := completeV2ph_cases s <;> simp [he]
  case v2phu => obtain ⟨v, he⟩ | ⟨e, -, he⟩ := completeV2phu_cases s <;> simp [he]
  all_goals simp

/-! The writes of the host while idle -/

/-- A CMD write while idle writes no result register but ELAPSED, which WAITRDY clears (R126). -/
theorem writeCmdReg_frame (d : Word) (s : State) :
    ∃ st c dn o k e el, writeCmdReg d s = { s with
      st := st, cmd := c, done := dn, outcome := o, errstep := k, hosterr := e, elapsed := el } ∧
      (el = s.elapsed ∨ (c = 5 ∧ el = 0)) := by
  obtain ⟨-, he⟩ | ⟨op, -, ⟨-, -, he⟩ | ⟨-, he⟩⟩ := writeCmdReg_cases d s <;> rw [he] <;>
    refine ⟨_, _, _, _, _, _, _, rfl, ?_⟩
  · exact .inl rfl
  · exact .inl rfl
  · split
    · rename_i hop; subst hop; exact .inr ⟨rfl, rfl⟩
    · exact .inl rfl

/-- A register write while idle writes VOLTS and VINPUT under their own numbers only (R47, R123). -/
theorem writeReg_volts_vinput (n : BitVec 5) (d : Word) (s : State) :
    ((s.writeReg n d).volts ≠ s.volts → n = 18) ∧ ((s.writeReg n d).vinput ≠ s.vinput → n = 19) := by
  unfold State.writeReg
  split <;> simp [BitVec.toNat_eq, *]

/-! The codes CMD can hold, by FSM state -/

theorem Consistent.cmd_of_polling {s : State} (h : Consistent s) (hs : s.st = .tPoll ∨ s.st = .wDelay) :
    s.cmd = 5 ∨ s.cmd = 7 := by
  obtain ⟨op, hop, hin⟩ := h.op_of_busy (by rcases hs with hs | hs <;> simp [hs])
  rw [currentOp_eq_some.1 hop]
  rcases hs with hs | hs <;> rw [hs] at hin <;> cases op <;> simp [mayBeIn, HostOp.code] at hin ⊢

theorem Consistent.cmd_of_tRead {s : State} (h : Consistent s) (hs : s.st = .tRead) : s.cmd = 6 ∨ s.cmd = 7 := by
  obtain ⟨op, hop, hin⟩ := h.op_of_busy (by simp [hs])
  rw [currentOp_eq_some.1 hop]
  rw [hs] at hin
  cases op <;> simp [mayBeIn, HostOp.code] at hin ⊢

theorem cmd_of_cap {s : State} (h : s.cap = true) : s.cmd = 7 := currentOp_eq_some.1 (cap_iff.1 h)

/-! The two statements -/

theorem Consistent.sequencer_raw_writer {p : Pins} {s : State} (h : Consistent s)
    (hne : (sequencer p s).raw ≠ s.raw) : (s.st = .tRead ∨ s.st = .tPoll) ∧ (s.cmd = 6 ∨ s.cmd = 7) := by
  by_cases hr : s.st = .tRead
  · exact ⟨.inl hr, h.cmd_of_tRead hr⟩
  · by_cases hp : s.st = .tPoll ∧ s.cap = true
    · exact ⟨.inr hp.1, .inr (cmd_of_cap hp.2)⟩
    · exact absurd (sequencer_raw hr fun hs => by simpa [hs] using hp) hne

theorem Consistent.sequencer_stshadow_writer {p : Pins} {s : State} (h : Consistent s)
    (hne : (sequencer p s).stshadow ≠ s.stshadow) : s.st = .tPoll ∧ (s.cmd = 5 ∨ s.cmd = 7) := by
  have hp : s.st = .tPoll := by_contra fun hp => hne (sequencer_stshadow hp)
  exact ⟨hp, h.cmd_of_polling (.inl hp)⟩

theorem Consistent.sequencer_elapsed_writer {p : Pins} {s : State} (h : Consistent s)
    (hne : (sequencer p s).elapsed ≠ s.elapsed) :
    ((s.st = .tPoll ∨ s.st = .wDelay) ∧ p.tick = true ∧ (s.cmd = 5 ∨ s.cmd = 7)) ∨
    (s.st = .tStart ∧ s.cmd = 7 ∧ (sequencer p s).elapsed = 0) := by
  obtain he | ⟨hs, ht⟩ | ⟨hs, hc, h0⟩ := sequencer_elapsed p s
  · exact absurd he hne
  · exact .inl ⟨hs, ht, h.cmd_of_polling hs⟩
  · exact .inr ⟨hs, cmd_of_cap hc, h0⟩

/-- The results of unit SC are written in SC_EXEC, each by its own operation. -/
theorem Consistent.sequencer_sc_writers (p : Pins) {s : State} (h : Consistent s) :
    ((sequencer p s).slope ≠ s.slope ∨ (sequencer p s).v7 ≠ s.v7 →
      s.st = .scExec ∧ s.cmd = 10 ∧ (sequencer p s).outcome = .ok) ∧
    ((sequencer p s).calv ≠ s.calv → s.st = .scExec ∧ s.cmd = 10) ∧
    ((sequencer p s).volts ≠ s.volts → s.st = .scExec ∧ s.cmd = 8 ∧ (sequencer p s).outcome = .ok) ∧
    ((sequencer p s).vinput ≠ s.vinput → s.st = .scExec ∧ s.cmd = 9 ∧ (sequencer p s).outcome = .ok) ∧
    ((sequencer p s).ph ≠ s.ph → s.st = .scExec ∧ s.cmd = 11 ∧ (sequencer p s).outcome = .ok) ∧
    ((sequencer p s).phu ≠ s.phu → s.st = .scExec ∧ s.cmd = 12 ∧ (sequencer p s).outcome = .ok) := by
  by_cases hs : s.st = .scExec
  · obtain ⟨op, hop, -⟩ := h.op_of_busy (by simp [hs])
    have hcmd := currentOp_eq_some.1 hop
    obtain ⟨hslope, hcalv, hvolts, hvinput, hph, hphu⟩ := scExec_writers hop
    rw [sequencer_scExec p s hs]
    refine ⟨fun hne => ?_, fun hne => ?_, fun hne => ?_, fun hne => ?_, fun hne => ?_, fun hne => ?_⟩
    · obtain ⟨rfl, ho⟩ := hslope hne; exact ⟨hs, hcmd, ho⟩
    · obtain rfl := hcalv hne; exact ⟨hs, hcmd⟩
    · obtain ⟨rfl, ho⟩ := hvolts hne; exact ⟨hs, hcmd, ho⟩
    · obtain ⟨rfl, ho⟩ := hvinput hne; exact ⟨hs, hcmd, ho⟩
    · obtain ⟨rfl, ho⟩ := hph hne; exact ⟨hs, hcmd, ho⟩
    · obtain ⟨rfl, ho⟩ := hphu hne; exact ⟨hs, hcmd, ho⟩
  · obtain ⟨hslope, hv7, hcalv, hvolts, hvinput, hph, hphu⟩ := sequencer_sc_frame p hs
    simp [hslope, hv7, hcalv, hvolts, hvinput, hph, hphu]

/-- Settles O58: a sequencer's edge, a CMD write and a register write, each by what it writes. -/
theorem resultWriters : Obligations.ResultWriters := by
  intro i s t h _ ht
  cases exec_blockCase ht with
  | edge p e r sel c o u hp ht =>
    subst t
    obtain ⟨hslope, hcalv, hvolts, hvinput, hph, hphu⟩ := h.sequencer_sc_writers p
    refine ⟨h.sequencer_raw_writer, h.sequencer_stshadow_writer, fun hne => ?_, hslope, hcalv,
      fun hne => .inl (hvolts hne), fun hne => .inl (hvinput hne), hph, hphu⟩
    have hel := h.sequencer_elapsed_writer hne
    rw [hp] at hel
    exact hel.imp_right .inl
  | command d hb ht =>
    obtain ⟨st, cm, dn, o, k, e, el, he, hel⟩ := writeCmdReg_frame d s
    rw [he] at ht
    subst t
    simp only [latchRead, ne_eq, not_true, or_self, false_imp_iff, true_and, and_true]
    exact fun hne => .inr (.inr ⟨hb, (hel.resolve_left hne).1, (hel.resolve_left hne).2⟩)
  | register n d hb hi ht =>
    subst t
    obtain ⟨hvolts, hvinput⟩ := writeReg_volts_vinput n d s
    simp only [latchRead_raw, latchRead_stshadow, latchRead_elapsed, latchRead_slope, latchRead_v7, latchRead_calv,
      latchRead_volts, latchRead_vinput, latchRead_ph, latchRead_phu, writeReg_raw, writeReg_stshadow,
      writeReg_elapsed, writeReg_slope, writeReg_v7, writeReg_calv, writeReg_ph, writeReg_phu, ne_eq, not_true,
      or_self, false_imp_iff, true_and, and_true]
    exact ⟨fun hne => .inr ⟨hb, d, hvolts hne ▸ hi⟩, fun hne => .inr ⟨hb, d, hvinput hne ▸ hi⟩⟩

/-- Settles O24: while busy every edge is the sequencer's, which leaves CMD and the operand registers. -/
theorem busyFreezesOperands : Obligations.BusyFreezesOperands := by
  intro i s t hb ht
  obtain ⟨p, e, r, sel, c, o, u, rfl⟩ := (exec_blockCase ht).sequencer_of_busy hb
  simp only [sequencer_cmd, sequencer_addr, sequencer_cfg, sequencer_extref, sequencer_maxwait, sequencer_pollus,
    sequencer_fegain, sequencer_calloPh, sequencer_calloV, sequencer_calhiPh, sequencer_calhiV, sequencer_thslope,
    true_and]
  intro hs
  obtain ⟨-, -, -, hvolts, hvinput, -, -⟩ := sequencer_sc_frame p hs
  exact ⟨hvolts, hvinput⟩

end Sys2Proof.Machine
end

section
/-! PROOFS. Noninterference (R24, R95, R232, R268, and the readers of R35 to R47): assigning the operand registers and
the input pins from outside commutes with an edge that does not read what is assigned. -/

namespace Sys2Proof.Machine

/-- An assignment of some of the operand registers and of the input pins; `none` leaves a field as it is. -/
structure Assignment where
  addr    : Option Byte := none
  cfg     : Option Byte := none
  extref  : Option Word := none
  maxwait : Option (BitVec 16) := none
  pollus  : Option (BitVec 16) := none
  fegain  : Option Word := none
  calloPh : Option Word := none
  calloV  : Option Word := none
  calhiPh : Option Word := none
  calhiV  : Option Word := none
  thslope : Option Word := none
  volts   : Option Word := none
  vinput  : Option Word := none
  pins    : Option Pins := none

/-- The state with the assignment made. -/
def State.assign (s : State) (o : Assignment) : State :=
  { s with
    addr := o.addr.getD s.addr
    cfg := o.cfg.getD s.cfg
    extref := o.extref.getD s.extref
    maxwait := o.maxwait.getD s.maxwait
    pollus := o.pollus.getD s.pollus
    fegain := o.fegain.getD s.fegain
    calloPh := o.calloPh.getD s.calloPh
    calloV := o.calloV.getD s.calloV
    calhiPh := o.calhiPh.getD s.calhiPh
    calhiV := o.calhiV.getD s.calhiV
    thslope := o.thslope.getD s.thslope
    volts := o.volts.getD s.volts
    vinput := o.vinput.getD s.vinput
    pins := o.pins.getD s.pins }

/-- Two states agree on what CODE2V reads of CFG and EXTREF (R201). -/
structure SameReference (s t : State) : Prop where
  ok : cfgOk t.cfg t.extref = cfgOk s.cfg s.extref
  ref : refVoltage t.cfg t.extref = refVoltage s.cfg s.extref
  gain : gainDivisor t.cfg = gainDivisor s.cfg

/-- The assignment changes nothing that the sequencer's next edge reads, and no register that the edge writes: the
readers of R35 to R47, by FSM state and by the operation in CMD. A clause about registers that are not assigned is true by
computation and may be left out. -/
structure Unread (o : Assignment) (s : State) : Prop where
  addr : s.st = .tSel → (s.assign o).addr = s.addr := by exact fun _ => rfl
  sent : s.st = .tCfg → cfgSent (s.assign o).cfg = cfgSent s.cfg := by exact fun _ => rfl
  poll : s.st = .tPoll → (s.assign o).maxwait = s.maxwait ∧ (s.assign o).pollus = s.pollus := by
    exact fun _ => ⟨rfl, rfl⟩
  code2v : s.st = .scExec → s.cmd = 8 → SameReference s (s.assign o) ∧ o.volts = none := by
    exact fun _ _ => ⟨⟨rfl, rfl, rfl⟩, rfl⟩
  v2in : s.st = .scExec → s.cmd = 9 →
      (s.assign o).fegain = s.fegain ∧ (s.assign o).volts = s.volts ∧ o.vinput = none := by
    exact fun _ _ => ⟨rfl, rfl, rfl⟩
  dcal : s.st = .scExec → s.cmd = 10 → (s.assign o).calloPh = s.calloPh ∧ (s.assign o).calloV = s.calloV ∧
      (s.assign o).calhiPh = s.calhiPh ∧ (s.assign o).calhiV = s.calhiV := by
    exact fun _ _ => ⟨rfl, rfl, rfl, rfl⟩
  v2ph : s.st = .scExec → s.cmd = 11 → (s.assign o).vinput = s.vinput := by exact fun _ _ => rfl
  v2phu : s.st = .scExec → s.cmd = 12 → (s.assign o).vinput = s.vinput ∧ (s.assign o).thslope = s.thslope := by
    exact fun _ _ => ⟨rfl, rfl⟩

/-! Behind the port -/

theorem transactionEnd_assign (r : TReq) (err : Bool) (d : Half) (s : State) (o : Assignment) :
    transactionEnd r err d (s.assign o) = (transactionEnd r err d s).assign o := by
  obtain ⟨sel, c, op, u, h⟩ := transactionEnd_frame r err d s
  rw [transactionEnd_congr r err d s (s.assign o) rfl rfl rfl rfl rfl, h]
  rfl

theorem served_assign (p : Pins) {s : State} {o : Assignment} (h : (s.assign o).request = s.request) :
    served p (s.assign o) = (served p s).assign o := by
  unfold served
  rw [h]
  split
  · exact transactionEnd_assign _ _ _ s o
  · rfl

theorem Unread.request {o : Assignment} {s : State} (h : Unread o s) : (s.assign o).request = s.request := by
  have hst : (s.assign o).st = s.st := rfl
  unfold State.request
  rw [hst]
  cases hs : s.st <;> dsimp only
  · rw [h.addr hs]
  · rw [h.sent hs]

/-! The sequencer -/

theorem goOn_assign {next : State → State} {s : State} {o : Assignment}
    (h : next (s.assign o) = (next s).assign o) : goOn next (s.assign o) = (goOn next s).assign o := by
  have hcap : (s.assign o).cap = s.cap := rfl
  unfold goOn
  rw [hcap, h]
  split <;> rfl

theorem edgeTSel_assign (p : Pins) {s : State} {o : Assignment} (h : (s.assign o).request = s.request) :
    edgeTSel p (s.assign o) = (edgeTSel p s).assign o := by
  simp only [edgeTSel, served_assign p h]
  (repeat' split) <;> rfl

/-- The edge of a transaction state from which CAPTURE goes on (R177). -/
theorem goOn_edge_assign {p : Pins} {k : ErrStep} {next : State → State} {s : State} {o : Assignment}
    (h : (s.assign o).request = s.request)
    (hnext : next ((served p s).assign o) = (next (served p s)).assign o) :
    (if p.ack then
        if p.err then raise (.transport k) (served p (s.assign o)) else goOn next (served p (s.assign o))
      else s.assign o) =
    (if p.ack then
        if p.err then raise (.transport k) (served p s) else goOn next (served p s)
      else s).assign o := by
  rw [served_assign p h]
  split
  · split
    · rfl
    · exact goOn_assign hnext
  · rfl

theorem edgeTRst_assign (p : Pins) {s : State} {o : Assignment} (h : (s.assign o).request = s.request) :
    edgeTRst p (s.assign o) = (edgeTRst p s).assign o :=
  goOn_edge_assign h rfl

theorem edgeTCfg_assign (p : Pins) {s : State} {o : Assignment} (h : (s.assign o).request = s.request) :
    edgeTCfg p (s.assign o) = (edgeTCfg p s).assign o :=
  goOn_edge_assign h rfl

theorem edgeTStart_assign (p : Pins) {s : State} {o : Assignment} (h : (s.assign o).request = s.request) :
    edgeTStart p (s.assign o) = (edgeTStart p s).assign o :=
  goOn_edge_assign h rfl

theorem edgeTRead_assign (p : Pins) {s : State} {o : Assignment} (h : (s.assign o).request = s.request) :
    edgeTRead p (s.assign o) = (edgeTRead p s).assign o := by
  simp only [edgeTRead, served_assign p h]
  (repeat' split) <;> rfl

theorem countTick_assign (p : Pins) (s : State) (o : Assignment) :
    countTick p (s.assign o) = (countTick p s).assign o := by
  rw [countTick_eq, countTick_eq]
  rfl

theorem notReady_assign (e : Word) {s : State} {o : Assignment} (hm : (s.assign o).maxwait = s.maxwait)
    (hp : (s.assign o).pollus = s.pollus) : notReady e (s.assign o) = (notReady e s).assign o := by
  have hcap : (s.assign o).cap = s.cap := rfl
  have hlate : deadlinePassed e (s.assign o).maxwait = deadlinePassed e s.maxwait := by rw [hm]
  have hzero : ((s.assign o).pollus = 0) = (s.pollus = 0) := by rw [hp]
  simp only [notReady, hlate, hzero, hcap]
  split
  · split <;> rfl
  · split
    · rfl
    · exact congrArg (fun d => { s with dl := d, st := .wDelay : State }.assign o) hp

theorem statusRead_assign (b : Byte) (e : Word) {s : State} {o : Assignment}
    (hm : (s.assign o).maxwait = s.maxwait) (hp : (s.assign o).pollus = s.pollus) :
    statusRead b e (s.assign o) = (statusRead b e s).assign o := by
  simp only [statusRead]
  split
  · exact goOn_assign (s := { s with stshadow := b }) rfl
  · exact notReady_assign (s := { s with stshadow := b }) e hm hp

theorem edgeTPoll_assign (p : Pins) {s : State} {o : Assignment} (h : (s.assign o).request = s.request)
    (hm : (s.assign o).maxwait = s.maxwait) (hp : (s.assign o).pollus = s.pollus) :
    edgeTPoll p (s.assign o) = (edgeTPoll p s).assign o := by
  have hreq : ((countTick p s).assign o).request = (countTick p s).request := by rw [countTick_eq]; exact h
  have hm' : ((served p (countTick p s)).assign o).maxwait = (served p (countTick p s)).maxwait := by
    simpa [State.assign] using hm
  have hp' : ((served p (countTick p s)).assign o).pollus = (served p (countTick p s)).pollus := by
    simpa [State.assign] using hp
  simp only [edgeTPoll, countTick_assign, served_assign p hreq]
  split
  · split
    · rfl
    · exact statusRead_assign _ _ hm' hp'
  · rfl

theorem edgeWDelay_assign (p : Pins) (s : State) (o : Assignment) :
    edgeWDelay p (s.assign o) = (edgeWDelay p s).assign o := by
  have hdl : (s.assign o).dl = s.dl := rfl
  simp only [edgeWDelay, countTick_eq, hdl]
  (repeat' split) <;> rfl

/-! Unit SC -/

theorem completeCode2v_assign {s : State} {o : Assignment} (h : SameReference s (s.assign o)) (hv : o.volts = none) :
    completeCode2v (s.assign o) = (completeCode2v s).assign o := by
  have hraw : (s.assign o).raw = s.raw := rfl
  unfold completeCode2v
  rw [h.ok, h.ref, h.gain, hraw]
  split
  · simp [complete, State.assign, hv]
  · rfl

theorem completeV2in_assign {s : State} {o : Assignment} (hg : (s.assign o).fegain = s.fegain)
    (hv : (s.assign o).volts = s.volts) (hi : o.vinput = none) :
    completeV2in (s.assign o) = (completeV2in s).assign o := by
  have hzero : ((s.assign o).fegain = 0) = (s.fegain = 0) := by rw [hg]
  have hres : vToInput (s.assign o).volts.toInt (s.assign o).fegain.toInt = vToInput s.volts.toInt s.fegain.toInt := by
    rw [hg, hv]
  simp only [completeV2in, hzero, hres]
  split
  · rfl
  · split
    · simp [complete, State.assign, hi]
    · rfl

theorem completeDcal_assign {s : State} {o : Assignment} (hlp : (s.assign o).calloPh = s.calloPh)
    (hlv : (s.assign o).calloV = s.calloV) (hhp : (s.assign o).calhiPh = s.calhiPh)
    (hhv : (s.assign o).calhiV = s.calhiV) : completeDcal (s.assign o) = (completeDcal s).assign o := by
  have heq : ((s.assign o).calhiPh = (s.assign o).calloPh) = (s.calhiPh = s.calloPh) := by rw [hlp, hhp]
  have hslope : calSlope (s.assign o).calloPh.toInt (s.assign o).calloV.toInt (s.assign o).calhiPh.toInt
      (s.assign o).calhiV.toInt = calSlope s.calloPh.toInt s.calloV.toInt s.calhiPh.toInt s.calhiV.toInt := by
    rw [hlp, hlv, hhp, hhv]
  have hzero (k : Int) : calV7 (s.assign o).calloPh.toInt (s.assign o).calloV.toInt k =
      calV7 s.calloPh.toInt s.calloV.toInt k := by rw [hlp, hlv]
  simp only [completeDcal, heq, hslope, hzero]
  (repeat' split) <;> rfl

theorem completeV2ph_assign {s : State} {o : Assignment} (hv : (s.assign o).vinput = s.vinput) :
    completeV2ph (s.assign o) = (completeV2ph s).assign o := by
  have hcal : (s.assign o).calv = s.calv := rfl
  have hslope : (s.assign o).slope = s.slope := rfl
  have hres : vToPh (s.assign o).vinput.toInt s.slope.toInt (s.assign o).v7.toInt =
      vToPh s.vinput.toInt s.slope.toInt s.v7.toInt := by rw [hv]; rfl
  simp only [completeV2ph, hcal, hslope, hres]
  (repeat' split) <;> rfl

theorem completeV2phu_assign {s : State} {o : Assignment} (hv : (s.assign o).vinput = s.vinput)
    (hth : (s.assign o).thslope = s.thslope) : completeV2phu (s.assign o) = (completeV2phu s).assign o := by
  have hzero : ((s.assign o).thslope = 0) = (s.thslope = 0) := by rw [hth]
  have hres : vToPhUncal (s.assign o).vinput.toInt (s.assign o).thslope.toInt =
      vToPhUncal s.vinput.toInt s.thslope.toInt := by rw [hv, hth]
  simp only [completeV2phu, hzero, hres]
  (repeat' split) <;> rfl

theorem Unread.scExec_assign {s : State} {o : Assignment} (h : Unread o s) (hs : s.st = .scExec) :
    scExec (s.assign o) = (scExec s).assign o := by
  cases hop : s.currentOp with
  | none =>
    have hop' : HostOp.ofCode s.cmd = none := hop
    simp [scExec, hop', State.assign]
  | some op =>
    have hcode := currentOp_eq_some.1 hop
    rw [scExec_of_currentOp hop, scExec_of_currentOp (s := s.assign o) hop]
    cases op <;> dsimp only [scResult]
    case code2v =>
      obtain ⟨href, hv⟩ := h.code2v hs hcode
      exact completeCode2v_assign href hv
    case v2in =>
      obtain ⟨hg, hv, hi⟩ := h.v2in hs hcode
      exact completeV2in_assign hg hv hi
    case dcal =>
      obtain ⟨hlp, hlv, hhp, hhv⟩ := h.dcal hs hcode
      exact completeDcal_assign hlp hlv hhp hhv
    case v2ph => exact completeV2ph_assign (h.v2ph hs hcode)
    case v2phu =>
      obtain ⟨hv, hth⟩ := h.v2phu hs hcode
      exact completeV2phu_assign hv hth

/-- The sequencer's edge commutes with an assignment to what it does not read. -/
theorem Unread.sequencer_assign (p : Pins) {s : State} {o : Assignment} (h : Unread o s) :
    sequencer p (s.assign o) = (sequencer p s).assign o := by
  have hst : (s.assign o).st = s.st := rfl
  unfold sequencer
  rw [hst]
  cases hs : s.st <;> dsimp only
  case tSel => exact edgeTSel_assign p h.request
  case tRst => exact edgeTRst_assign p h.request
  case tCfg => exact edgeTCfg_assign p h.request
  case tStart => exact edgeTStart_assign p h.request
  case tPoll =>
    obtain ⟨hm, hp⟩ := h.poll hs
    exact edgeTPoll_assign p h.request hm hp
  case wDelay => exact edgeWDelay_assign p s o
  case tRead => exact edgeTRead_assign p h.request
  case scExec => exact h.scExec_assign hs

/-! The host's accesses -/

/-- An instruction commutes with an assignment. -/
def Commutes (i : Instr) (o : Assignment) (s : State) : Prop :=
  ∀ t, exec i s = .next t → exec i (s.assign o) = .next (t.assign o)

theorem latchRead_assign {n : BitVec 5} {s : State} {o : Assignment} (hn : (s.assign o).readReg n = s.readReg n)
    (t : State) : latchRead n (s.assign o) (t.assign o) = (latchRead n s t).assign o := by
  unfold latchRead
  rw [hn]
  rfl

theorem rd_commutes {n : BitVec 5} (g : Word) {s : State} {o : Assignment}
    (hn : (s.assign o).readReg n = s.readReg n)
    (hrun : sequencer (s.assign o).pins (s.assign o) = (sequencer s.pins s).assign o) :
    Commutes (.rd n g) o s := by
  rintro t ⟨⟩
  simp only [exec, execRd]
  rw [hrun, latchRead_assign hn]

/-- A CMD write while idle reads no operand register but, for WRCFG and CAPTURE, CFG and EXTREF (R126, R165). -/
theorem writeCmdReg_assign (d : Word) {s : State} {o : Assignment}
    (hok : ∀ op, HostOp.ofCode (d.extractLsb' 0 4) = some op → op = .wrcfg ∨ op = .capture →
      cfgOk (s.assign o).cfg (s.assign o).extref = cfgOk s.cfg s.extref) :
    writeCmdReg d (s.assign o) = (writeCmdReg d s).assign o := by
  have hchecked : ∀ op, HostOp.ofCode (d.extractLsb' 0 4) = some op → op = .wrcfg ∨ op = .capture →
      acceptChecked op (s.assign o) = (acceptChecked op s).assign o := by
    intro op hop hc
    unfold acceptChecked
    rw [hok op hop hc]
    split <;> rfl
  unfold writeCmdReg
  cases hop : HostOp.ofCode (d.extractLsb' 0 4) with
  | none => rfl
  | some op =>
    cases op <;> dsimp only
    case wrcfg => exact hchecked _ hop (.inl rfl)
    case capture => exact hchecked _ hop (.inr rfl)
    all_goals rfl

theorem op_commutes (op : HostOp) (x : BitVec 28) {s : State} {o : Assignment}
    (hrun : s.st ≠ .idle → sequencer (s.assign o).pins (s.assign o) = (sequencer s.pins s).assign o)
    (hok : s.st = .idle → op = .wrcfg ∨ op = .capture →
      cfgOk (s.assign o).cfg (s.assign o).extref = cfgOk s.cfg s.extref) :
    Commutes (op.instr x) o s := by
  intro t ht
  rw [exec_instr] at ht ⊢
  cases ht
  by_cases hb : s.st = .idle
  · rw [writeEdge_idle _ _ _ hb, writeEdge_idle _ _ _ (show (s.assign o).st = .idle from hb), writeCmdReg_assign,
      latchRead_assign rfl]
    intro op' hop'
    rw [(cmdWord_fields x op.code).1, HostOp.ofCode_code] at hop'
    cases hop'
    exact hok hb
  · rw [writeEdge_busy _ _ _ hb, writeEdge_busy _ _ _ (show (s.assign o).st ≠ .idle from hb), hrun hb]
    exact congrArg _ (latchRead_assign rfl (sequencer s.pins s).hostError)

end Sys2Proof.Machine
end

section
/-! PROOFS. The three statements on what makes no difference: the response pins, the inert bits of CFG, and the operand
registers an edge does not name. -/

namespace Sys2Proof.Machine

/-! The response pins (R24, R232) -/

/-- Where no response is awaited, or none comes, the sequencer sees of the pins the tick only. -/
theorem sequencer_pins_congr {p q : Pins} {s : State} (h : s.tReqOut = false ∨ (p.ack = false ∧ q.ack = false))
    (ht : q.tick = p.tick) : sequencer q s = sequencer p s := by
  have hcount : countTick q s = countTick p s := by rw [countTick_eq, countTick_eq, ht]
  obtain hreq | ⟨hp, hq⟩ := h
  · have hnone : s.request = none := by simpa [State.tReqOut] using hreq
    obtain hs | hs | hs := request_eq_none.1 hnone
    · rw [sequencer_idle _ _ hs, sequencer_idle _ _ hs]
    · rw [sequencer_wDelay _ _ hs, sequencer_wDelay _ _ hs]
      simp only [edgeWDelay, hcount, ht]
    · rw [sequencer_scExec _ _ hs, sequencer_scExec _ _ hs]
  · simp only [sequencer, edgeTSel, edgeTRst, edgeTCfg, edgeTStart, edgeTPoll, edgeWDelay, edgeTRead, hp, hq, ht,
      hcount, Bool.false_eq_true, if_false]

/-- The pins are none of the registers an edge reads. -/
theorem unread_pins (p : Pins) (s : State) : Unread { pins := some p } s := {}

/-- No register shows the pins. -/
theorem readReg_pins (p : Pins) (s : State) (n : BitVec 5) : (s.assign { pins := some p }).readReg n = s.readReg n :=
  rfl

theorem writeReg_pins_assign (n : BitVec 5) (d : Word) (p : Pins) (s : State) :
    (s.assign { pins := some p }).writeReg n d = (s.writeReg n d).assign { pins := some p } := by
  unfold State.writeReg
  split <;> rfl

theorem wr_commutes_pins (n : BitVec 5) (d : Word) {p : Pins} {s : State}
    (hrun : sequencer p (s.assign { pins := some p }) = (sequencer s.pins s).assign { pins := some p }) :
    Commutes (.wr n d) { pins := some p } s := by
  have hrun' : sequencer (s.assign { pins := some p }).pins (s.assign { pins := some p }) =
      (sequencer s.pins s).assign { pins := some p } := hrun
  intro t ht
  by_cases h1 : n = 1
  · subst h1
    rw [exec_wr_status] at ht ⊢
    cases ht
    rw [hrun']
    rfl
  · by_cases hb : s.st = .idle
    · have hb' : (s.assign { pins := some p }).st = .idle := hb
      by_cases h0 : n = 0
      · subst h0
        rw [exec_wr_cmd d hb] at ht
        cases ht
        rw [exec_wr_cmd d hb', writeCmdReg_assign d fun _ _ _ => rfl]
        rfl
      · rw [exec_wr_register d h1 h0 hb] at ht
        cases ht
        rw [exec_wr_register d h1 h0 hb', writeReg_pins_assign]
        rfl
    · have hb' : (s.assign { pins := some p }).st ≠ .idle := hb
      rw [exec_wr_busy d h1 hb] at ht
      cases ht
      rw [exec_wr_busy d h1 hb', hrun']
      rfl

/-- A host word is a read, a write or an operation. -/
theorem instr_of_isHost {i : Instr} (h : (encode i).isHost = true) :
    (∃ n g, i = .rd n g) ∨ (∃ n d, i = .wr n d) ∨ ∃ (op : HostOp) (x : BitVec 28), i = op.instr x := by
  cases i with
  | rd n g => exact .inl ⟨n, g, rfl⟩
  | wr n d => exact .inr (.inl ⟨n, d, rfl⟩)
  | select x => exact .inr (.inr ⟨.select, x, rfl⟩)
  | devReset x => exact .inr (.inr ⟨.devReset, x, rfl⟩)
  | wrcfg x => exact .inr (.inr ⟨.wrcfg, x, rfl⟩)
  | start x => exact .inr (.inr ⟨.start, x, rfl⟩)
  | waitrdy x => exact .inr (.inr ⟨.waitrdy, x, rfl⟩)
  | rdraw x => exact .inr (.inr ⟨.rdraw, x, rfl⟩)
  | capture x => exact .inr (.inr ⟨.capture, x, rfl⟩)
  | code2v x => exact .inr (.inr ⟨.code2v, x, rfl⟩)
  | v2in x => exact .inr (.inr ⟨.v2in, x, rfl⟩)
  | dcal x => exact .inr (.inr ⟨.dcal, x, rfl⟩)
  | v2ph x => exact .inr (.inr ⟨.v2ph, x, rfl⟩)
  | v2phu x => exact .inr (.inr ⟨.v2phu, x, rfl⟩)
  | dvReset | dvStartSync | dvReadData | dvReadConfig | dvReadStatus | dvWriteConfig _ _
  | tSelect _ _ | tWriteCmd _ _ | tWriteCmdData _ _ | tReadByte _ _ | tReadWord _ _ => cases h

/-- Settles O37: the sequencer sees the same of the two sets of pins, and no host access reads them. -/
theorem responseIgnored : Obligations.ResponseIgnored := by
  intro i s p hi _ htick hresp
  have hrun : sequencer p (s.assign { pins := some p }) = (sequencer s.pins s).assign { pins := some p } := by
    rw [(unread_pins p s).sequencer_assign, sequencer_pins_congr hresp htick]
  obtain ⟨n, g, rfl⟩ | ⟨n, d, rfl⟩ | ⟨op, x, rfl⟩ := instr_of_isHost hi
  · exact rd_commutes g (readReg_pins p s n) hrun
  · exact wr_commutes_pins n d hrun
  · exact op_commutes op x (fun _ => hrun) fun _ _ => rfl

/-! The inert bits of CFG (R95, R268) -/

/-- Bits 7:4 and bit 0 are all that is read of CFG: the byte sent, the reference and the gain. -/
theorem cfg_fields_of_masked_eq {c c' : Byte} (h : c &&& 0xF1#8 = c' &&& 0xF1#8) :
    cfgSent c = cfgSent c' ∧ cfgVref c = cfgVref c' ∧ cfgGain c = cfgGain c' := by
  have hbit (i : Nat) : (c &&& 0xF1#8).getLsbD i = (c' &&& 0xF1#8).getLsbD i := by rw [h]
  refine ⟨?_, ?_, ?_⟩
  · have hmask : (0xF0#8 : Byte) = 0xF1#8 &&& 0xF0#8 := by decide
    unfold cfgSent
    rw [hmask, ← BitVec.and_assoc, ← BitVec.and_assoc, h]
  · simpa [cfgVref] using hbit 0
  · simpa [cfgGain] using hbit 4

theorem cfgOk_of_masked_eq {c c' : Byte} (h : c &&& 0xF1#8 = c' &&& 0xF1#8) (e : Word) : cfgOk c e = cfgOk c' e := by
  obtain ⟨-, hvref, -⟩ := cfg_fields_of_masked_eq h
  unfold cfgOk
  rw [hvref]

theorem unread_inert_cfg {c : Byte} {s : State} (h : c &&& 0xF1#8 = s.cfg &&& 0xF1#8) :
    Unread { cfg := some c } s := by
  obtain ⟨hsent, hvref, hgain⟩ := cfg_fields_of_masked_eq h
  have href : refVoltage c s.extref = refVoltage s.cfg s.extref := by unfold refVoltage; rw [hvref]
  have hdiv : gainDivisor c = gainDivisor s.cfg := by unfold gainDivisor; rw [hgain]
  exact { sent := fun _ => hsent, code2v := fun _ _ => ⟨⟨cfgOk_of_masked_eq h s.extref, href, hdiv⟩, rfl⟩ }

/-- Register 3 alone shows CFG (R26). -/
theorem readReg_cfg (c : Byte) (s : State) {n : BitVec 5} (hn : n ≠ 3) :
    (s.assign { cfg := some c }).readReg n = s.readReg n := by
  have h3 : n.toNat ≠ 3 := fun h => hn (BitVec.eq_of_toNat_eq h)
  unfold State.readReg
  split
  case h_4 h => exact absurd h h3
  all_goals rfl

/-- Settles O59, by `unread_inert_cfg`. -/
theorem inertConfigBits : Obligations.InertConfigBits := by
  intro s c n g hc hn
  have hrun := (unread_inert_cfg hc).sequencer_assign s.pins
  exact ⟨rd_commutes g (readReg_cfg c s hn) hrun,
    fun op x => op_commutes op x (fun _ => hrun) fun _ _ => cfgOk_of_masked_eq hc s.extref⟩

/-! The readers of the operand registers (R35 to R47) -/

/-- CODE2V does not read the VOLTS it writes over. -/
theorem completeCode2v_overwrites_volts (s : State) (v : Word) :
    { completeCode2v { s with volts := v } with volts := v } = { completeCode2v s with volts := v } := by
  simp only [completeCode2v]
  split <;> rfl

/-- V2IN does not read the VINPUT it writes over. -/
theorem completeV2in_overwrites_vinput (s : State) (v : Word) :
    { completeV2in { s with vinput := v } with vinput := v } = { completeV2in s with vinput := v } := by
  simp only [completeV2in]
  split
  · rfl
  · split <;> rfl

theorem sequencer_scResult (p : Pins) {s : State} (op : HostOp) (hs : s.st = .scExec) (hc : s.cmd = op.code) :
    sequencer p s = scResult op s := by
  rw [sequencer_scExec p s hs, scExec_of_currentOp (currentOp_eq_some.2 hc)]

/-- Settles O60: each clause is an assignment that the edge does not read. -/
theorem operandsReadOnlyByTheirOp : Obligations.OperandsReadOnlyByTheirOp := by
  intro s c m v
  dsimp only
  have hrun {o : Assignment} (h : Unread o s) : sequencer s.pins (s.assign o) = (sequencer s.pins s).assign o :=
    h.sequencer_assign s.pins
  have hissue (hb : s.st = .idle) (op : HostOp) {o : Assignment}
      (hok : op = .wrcfg ∨ op = .capture → cfgOk (s.assign o).cfg (s.assign o).extref = cfgOk s.cfg s.extref)
      (x : BitVec 28) : Commutes (op.instr x) o s := op_commutes op x (fun hn => absurd hb hn) fun _ => hok
  refine ⟨fun hs => ?addr, fun hs h8 => ?cfg, fun h8 => ?extref, fun hs => ⟨?maxwait, ?pollus⟩, fun h9 => ?fegain,
    fun h10 => ⟨?calloPh, ?calloV, ?calhiPh, ?calhiV⟩, fun h12 => ?thslope, fun h8 h9 => ?volts,
    fun ⟨hs, hc⟩ => ?code2v, fun h9 h11 h12 => ?vinput, fun ⟨hs, hc⟩ => ?v2in, fun hb op => ?issue⟩
  case addr => exact hrun (o := { addr := some c }) { addr := fun h => absurd h hs }
  case cfg =>
    exact hrun (o := { cfg := some c }) { sent := fun h => absurd h hs, code2v := fun h hc => absurd ⟨h, hc⟩ h8 }
  case extref => exact hrun (o := { extref := some v }) { code2v := fun h hc => absurd ⟨h, hc⟩ h8 }
  case maxwait => exact hrun (o := { maxwait := some m }) { poll := fun h => absurd h hs }
  case pollus => exact hrun (o := { pollus := some m }) { poll := fun h => absurd h hs }
  case fegain => exact hrun (o := { fegain := some v }) { v2in := fun h hc => absurd ⟨h, hc⟩ h9 }
  case calloPh => exact hrun (o := { calloPh := some v }) { dcal := fun h hc => absurd ⟨h, hc⟩ h10 }
  case calloV => exact hrun (o := { calloV := some v }) { dcal := fun h hc => absurd ⟨h, hc⟩ h10 }
  case calhiPh => exact hrun (o := { calhiPh := some v }) { dcal := fun h hc => absurd ⟨h, hc⟩ h10 }
  case calhiV => exact hrun (o := { calhiV := some v }) { dcal := fun h hc => absurd ⟨h, hc⟩ h10 }
  case thslope => exact hrun (o := { thslope := some v }) { v2phu := fun h hc => absurd ⟨h, hc⟩ h12 }
  case volts =>
    exact hrun (o := { volts := some v })
      { code2v := fun h hc => absurd ⟨h, hc⟩ h8, v2in := fun h hc => absurd ⟨h, hc⟩ h9 }
  case code2v =>
    rw [sequencer_scResult _ .code2v hs hc, sequencer_scResult (s := { s with volts := v }) _ .code2v hs hc]
    exact completeCode2v_overwrites_volts s v
  case vinput =>
    exact hrun (o := { vinput := some v })
      { v2in := fun h hc => absurd ⟨h, hc⟩ h9, v2ph := fun h hc => absurd ⟨h, hc⟩ h11
        v2phu := fun h hc => absurd ⟨h, hc⟩ h12 }
  case v2in =>
    rw [sequencer_scResult _ .v2in hs hc, sequencer_scResult (s := { s with vinput := v }) _ .v2in hs hc]
    exact completeV2in_overwrites_vinput s v
  case issue =>
    refine ⟨fun hw hcap => ⟨?_, ?_⟩, ?_, ?_, ?_, ?_, ?_, ?_, ?_, ?_, ?_, ?_, ?_⟩
    · exact hissue hb op (o := { cfg := some c }) fun h => absurd h (not_or.2 ⟨hw, hcap⟩)
    · exact hissue hb op (o := { extref := some v }) fun h => absurd h (not_or.2 ⟨hw, hcap⟩)
    · exact hissue hb op (o := { addr := some c }) fun _ => rfl
    · exact hissue hb op (o := { maxwait := some m }) fun _ => rfl
    · exact hissue hb op (o := { pollus := some m }) fun _ => rfl
    · exact hissue hb op (o := { fegain := some v }) fun _ => rfl
    · exact hissue hb op (o := { calloPh := some v }) fun _ => rfl
    · exact hissue hb op (o := { calloV := some v }) fun _ => rfl
    · exact hissue hb op (o := { calhiPh := some v }) fun _ => rfl
    · exact hissue hb op (o := { calhiV := some v }) fun _ => rfl
    · exact hissue hb op (o := { thslope := some v }) fun _ => rfl
    · exact hissue hb op (o := { volts := some v }) fun _ => rfl
    · exact hissue hb op (o := { vinput := some v }) fun _ => rfl

end Sys2Proof.Machine
end

section
/-! PROOFS. The byte order (R8, R67, R68) and the configuration byte (R96). -/

namespace Sys2Proof.Machine

/-- The low half of a swapped word is the high half of the word, and the other way round. -/
theorem bswap16_halves (w : Half) :
    (bswap16 w).extractLsb' 0 8 = w.extractLsb' 8 8 ∧ (bswap16 w).extractLsb' 8 8 = w.extractLsb' 0 8 :=
  ⟨BitVec.extractLsb'_append_eq_right, BitVec.extractLsb'_append_eq_left⟩

/-- Settles O53: the halves of the swapped word, joined in the other order, are the word. -/
theorem byteSwapInvolutive : Obligations.ByteSwapInvolutive := by
  intro w
  obtain ⟨hlo, hhi⟩ := bswap16_halves w
  calc bswap16 (bswap16 w)
      = w.extractLsb' 8 8 ++ w.extractLsb' 0 8 := by rw [bswap16, hlo, hhi]
    _ = w.extractLsb' 0 16 := BitVec.extractLsb'_append_extractLsb'_eq_extractLsb' rfl
    _ = w := BitVec.extractLsb'_eq_self

/-- The byte sent is the configuration byte of the mux and the gain of CFG (R96). -/
theorem configByte_of_cfg (c : Byte) : configByte (c.extractLsb' 5 3) (c.extractLsb' 4 1) = cfgSent c := by
  revert c; decide

end Sys2Proof.Machine
end

section
/-! PROOFS. What an edge does behind the transport port (R11, R65, R74): the end of the block's acknowledged request, and
nothing else. -/

namespace Sys2Proof.Machine

/-- Behind the port `t` is as `s`: the selected address and what is held of each device. -/
structure SameBehindPort (s t : State) : Prop where
  selected : t.selected = s.selected
  devCfg : t.devCfg = s.devCfg
  devOpen : t.devOpen = s.devOpen
  devRun : t.devRun = s.devRun

theorem SameBehindPort.refl (s : State) : SameBehindPort s s := ⟨rfl, rfl, rfl, rfl⟩

theorem SameBehindPort.trans {s t u : State} (h : SameBehindPort s t) (h' : SameBehindPort t u) : SameBehindPort s u :=
  ⟨h'.selected.trans h.selected, h'.devCfg.trans h.devCfg, h'.devOpen.trans h.devOpen, h'.devRun.trans h.devRun⟩

theorem SameBehindPort.memoryForm {s t : State} (h : SameBehindPort s t) (hs : MemoryForm s) : MemoryForm t :=
  hs.of_eq h.devCfg h.devOpen h.devRun

theorem SameBehindPort.deviceSame {s t : State} (h : SameBehindPort s t) : DeviceSame s t :=
  .of_eq h.devCfg h.devOpen h.devRun

/-- What a transaction does behind the port does not depend on the block. -/
theorem SameBehindPort.transactionEnd (r : TReq) (err : Bool) (d : Half) {s t : State} (h : SameBehindPort s t)
    (he : t.edge = s.edge) : SameBehindPort (transactionEnd r err d s) (transactionEnd r err d t) := by
  rw [transactionEnd_congr r err d s t h.selected h.devCfg h.devOpen h.devRun he]
  exact ⟨rfl, rfl, rfl, rfl⟩

theorem served_of_request {p : Pins} {s : State} {r : TReq} (h : s.request = some r) :
    served p s = transactionEnd r p.err p.rdata s := by
  unfold served; rw [h]

theorem served_of_no_request {p : Pins} {s : State} (h : s.request = none) : served p s = s := by
  unfold served; rw [h]

theorem countTick_behindPort (p : Pins) (s : State) : SameBehindPort s (countTick p s) := by
  rw [countTick_eq]
  exact ⟨rfl, rfl, rfl, rfl⟩

/-- Counting the tick does not change what the end of the transaction does behind the port. -/
theorem served_countTick (p : Pins) (s : State) : SameBehindPort (served p s) (served p (countTick p s)) := by
  have hreq : (countTick p s).request = s.request := by rw [countTick_eq]; rfl
  have hsame := countTick_behindPort p s
  cases h : s.request with
  | none => rwa [served_of_no_request h, served_of_no_request (hreq.trans h)]
  | some r =>
    rw [served_of_request h, served_of_request (hreq.trans h)]
    exact hsame.transactionEnd r p.err p.rdata (by rw [countTick_eq])

theorem complete_behindPort (o : OutcomeCode) (s : State) : SameBehindPort s (complete o s) := ⟨rfl, rfl, rfl, rfl⟩

theorem raise_behindPort (e : ErrorKind) (s : State) : SameBehindPort s (raise e s) := ⟨rfl, rfl, rfl, rfl⟩

theorem goOn_behindPort {next : State → State} {s : State} (h : SameBehindPort s (next s)) :
    SameBehindPort s (goOn next s) := by
  unfold goOn
  split
  · exact h
  · exact complete_behindPort .ok s

theorem statusRead_behindPort (b : Byte) (e : Word) (s : State) : SameBehindPort s (statusRead b e s) := by
  simp only [statusRead, notReady, goOn]
  (repeat' split) <;> exact ⟨rfl, rfl, rfl, rfl⟩

theorem scExec_behindPort (s : State) : SameBehindPort s (scExec s) := by
  simp only [scExec, completeCode2v, completeV2in, completeDcal, completeV2ph, completeV2phu]
  (repeat' split) <;> exact ⟨rfl, rfl, rfl, rfl⟩

/-- The edge of a transaction state from which CAPTURE goes on does behind the port what `served` does (R177). -/
theorem goOn_edge_behindPort {p : Pins} {k : ErrStep} {next : State → State} {s : State}
    (hnext : SameBehindPort (served p s) (next (served p s))) :
    SameBehindPort (if p.ack then served p s else s)
      (if p.ack then
        if p.err then raise (.transport k) (served p s) else goOn next (served p s)
      else s) := by
  split
  · split
    · exact raise_behindPort _ _
    · exact goOn_behindPort hnext
  · exact .refl s

theorem edgeTSel_behindPort (p : Pins) (s : State) :
    SameBehindPort (if p.ack then served p s else s) (edgeTSel p s) := by
  unfold edgeTSel
  (repeat' split) <;> exact ⟨rfl, rfl, rfl, rfl⟩

theorem edgeTRead_behindPort (p : Pins) (s : State) :
    SameBehindPort (if p.ack then served p s else s) (edgeTRead p s) := by
  unfold edgeTRead
  (repeat' split) <;> exact ⟨rfl, rfl, rfl, rfl⟩

theorem edgeTPoll_behindPort (p : Pins) (s : State) :
    SameBehindPort (if p.ack then served p s else s) (edgeTPoll p s) := by
  have hserved := served_countTick p s
  simp only [edgeTPoll]
  split
  · split
    · exact hserved.trans (raise_behindPort _ _)
    · exact hserved.trans (statusRead_behindPort _ _ _)
  · exact countTick_behindPort p s

theorem edgeWDelay_behindPort (p : Pins) (s : State) : SameBehindPort s (edgeWDelay p s) := by
  simp only [edgeWDelay, countTick_eq]
  (repeat' split) <;> exact ⟨rfl, rfl, rfl, rfl⟩

/-- Behind the port an edge of the sequencer ends the block's acknowledged transaction and does nothing else. -/
theorem sequencer_behindPort (p : Pins) (s : State) :
    SameBehindPort (if p.ack then served p s else s) (sequencer p s) := by
  have hnone (h : s.request = none) : (if p.ack then served p s else s) = s := by
    rw [served_of_no_request h, ite_self]
  unfold sequencer
  cases hs : s.st <;> dsimp only
  case idle => rw [hnone (request_eq_none.2 (.inl hs))]; exact .refl s
  case tSel => exact edgeTSel_behindPort p s
  case tRst => exact goOn_edge_behindPort ⟨rfl, rfl, rfl, rfl⟩
  case tCfg => exact goOn_edge_behindPort ⟨rfl, rfl, rfl, rfl⟩
  case tStart => exact goOn_edge_behindPort ⟨rfl, rfl, rfl, rfl⟩
  case tPoll => exact edgeTPoll_behindPort p s
  case wDelay => rw [hnone (request_eq_none.2 (.inr (.inl hs)))]; exact edgeWDelay_behindPort p s
  case tRead => exact edgeTRead_behindPort p s
  case scExec => rw [hnone (request_eq_none.2 (.inr (.inr hs)))]; exact scExec_behindPort s

theorem sequencer_behindPort_of_no_ack {p : Pins} (s : State) (h : p.ack = false) :
    SameBehindPort s (sequencer p s) := by
  simpa [h] using sequencer_behindPort p s

/-- A CMD write does nothing behind the port. -/
theorem writeCmdReg_behindPort (d : Word) (s : State) : SameBehindPort s (writeCmdReg d s) := by
  obtain ⟨st, c, dn, o, k, e, el, h, -⟩ := writeCmdReg_frame d s
  rw [h]
  exact ⟨rfl, rfl, rfl, rfl⟩

/-! The canonical form of the sparse memories -/

theorem sequencer_memoryForm (p : Pins) {s : State} (h : MemoryForm s) : MemoryForm (sequencer p s) := by
  refine (sequencer_behindPort p s).memoryForm ?_
  split
  · exact served_memoryForm p s h
  · exact h

theorem resetEdge_memoryForm (w : PortWord) {s : State} (h : MemoryForm s) : MemoryForm (resetEdge w s) :=
  (withdrawn_memoryForm w s h).of_eq rfl rfl rfl

theorem exec_memoryForm {i : Instr} {s t : State} (h : MemoryForm s) (ht : exec i s = .next t) : MemoryForm t := by
  have hrun (p : Pins) : MemoryForm (sequencer p s) := sequencer_memoryForm p h
  cases exec_cases i s t ht with
  | read n g hi ht => rw [ht]; exact (hrun s.pins).of_eq rfl rfl rfl
  | status d hi ht => rw [ht]; exact (hrun s.pins).of_eq rfl rfl rfl
  | lost n hb hn hi ht => rw [ht]; exact (hrun s.pins).of_eq rfl rfl rfl
  | command d hb hi ht => rw [ht]; exact ((writeCmdReg_behindPort d s).memoryForm h).of_eq rfl rfl rfl
  | register n d hb h0 h1 hi ht => rw [ht]; exact h.of_eq (by simp) (by simp) (by simp)
  | own r hr hi ht => rw [ht]; exact hrun s.pins
  | other r hr hi ht =>
    rw [ht]
    split
    · exact transactionEnd_memoryForm r _ _ _ (hrun _)
    · exact hrun _

/-- Settles O12: a reset edge by `resetEdge_memoryForm`, any other edge by `exec_memoryForm`. -/
theorem stepKeepsMemoryForm : Obligations.StepKeepsMemoryForm := by
  intro s t h ht
  have hsampled : MemoryForm s.sampled := h.of_eq rfl rfl rfl
  obtain ⟨-, rfl⟩ | ⟨-, i, -, hi⟩ := step_cases s t ht
  · exact resetEdge_memoryForm _ hsampled
  · exact exec_memoryForm hsampled hi

end Sys2Proof.Machine
end

section
/-! PROOFS. A transaction on the transport port: the block's request while it is held (R65), the block's own transaction
and another master's (R78, log 3, log 4), and what its end does behind the port (R74, R140 to R150). -/

namespace Sys2Proof.Machine

/-! The request is held -/

/-- While a request is not acknowledged the sequencer waits; in T_POLL the tick is counted (R177, R178). -/
theorem sequencer_waits {p : Pins} {s : State} (hreq : s.tReqOut = true) (hack : p.ack = false) :
    sequencer p s = if s.st = .tPoll then countTick p s else s := by
  cases hs : s.st
  case idle | wDelay | scExec => simp [State.tReqOut, State.request, hs] at hreq
  all_goals simp [sequencer, hs, edgeTSel, edgeTRst, edgeTCfg, edgeTStart, edgeTPoll, edgeTRead, hack]

theorem sequencer_waits_frame {p : Pins} {s : State} (hreq : s.tReqOut = true) (hack : p.ack = false) :
    ∃ el, sequencer p s = { s with elapsed := el } := by
  rw [sequencer_waits hreq hack]
  split
  · exact ⟨_, countTick_eq p s⟩
  · exact ⟨s.elapsed, rfl⟩

theorem withoutAck_of_no_ack {p : Pins} (h : p.ack = false) : withoutAck p = p := by
  simp [withoutAck, ← h]

theorem busy_of_request {s : State} (h : s.tReqOut = true) : s.st ≠ .idle := by
  intro hs
  simp [State.tReqOut, State.request, hs] at h

/-- While a request is not acknowledged no instruction changes anything in the block but ELAPSED, HOSTERR and the record of
`h_rdata`. -/
theorem exec_waits {i : Instr} {s t : State} (hreq : s.tReqOut = true) (hack : s.pins.ack = false)
    (ht : exec i s = .next t) : ∃ el e h, t = { s with elapsed := el, hosterr := e, hRdata := h } := by
  obtain ⟨el, hwait⟩ := sequencer_waits_frame hreq hack
  have hb := busy_of_request hreq
  cases exec_cases i s t ht with
  | read n g hi ht => rw [ht, hwait]; exact ⟨_, _, _, rfl⟩
  | status d hi ht => rw [ht, hwait]; exact ⟨_, _, _, rfl⟩
  | lost n hb hn hi ht => rw [ht, hwait]; exact ⟨_, _, _, rfl⟩
  | command d hi => exact absurd hi hb
  | register n d hi => exact absurd hi hb
  | own r hr hi ht => rw [ht, hwait]; exact ⟨_, _, _, rfl⟩
  | other r hr hi ht =>
    rw [withoutAck_of_no_ack hack, hack, if_neg Bool.false_ne_true, hwait] at ht
    exact ⟨_, _, _, ht⟩

/-- Settles O26: `exec_waits` leaves `st`, ADDR and CFG, which are all the request is made of. -/
theorem requestHeld : Obligations.RequestHeld := by
  intro i s t hreq hack ht
  obtain ⟨el, e, h, rfl⟩ := exec_waits hreq hack ht
  exact ⟨rfl, hreq, rfl, rfl, rfl⟩

/-! The block's own transaction and another master's -/

/-- The block's own transaction is the sequencer's edge (log 3). -/
theorem transactEdge_own {r : TReq} {s : State} (h : s.request = some r) : transactEdge r s = sequencer s.pins s :=
  if_pos h

/-- Another master's transaction: the edge without an acknowledge, and its end behind the port (log 3, log 4). -/
theorem transactEdge_other {r : TReq} {s : State} (h : s.request ≠ some r) :
    transactEdge r s =
      if s.pins.ack then transactionEnd r s.pins.err s.pins.rdata (sequencer (withoutAck s.pins) s)
      else sequencer (withoutAck s.pins) s :=
  if_neg h

/-- A word that is no host word runs as the transaction of some request. -/
theorem exec_transaction {i : Instr} (h : (encode i).isHost = false) :
    ∃ r, ∀ s, exec i s = .next (transactEdge r s) := by
  cases i with
  | dvReset | dvStartSync | dvReadData | dvReadConfig | dvReadStatus | dvWriteConfig _ _
  | tSelect _ _ | tWriteCmd _ _ | tWriteCmdData _ _ | tReadByte _ _ | tReadWord _ _ => exact ⟨_, fun _ => rfl⟩
  | _ => cases h

/-- The word of a request runs as its transaction (R102). -/
theorem exec_of_decode_treq {r : TReq} {i : Instr} (h : decode (.treq (r.op.code ++ r.a ++ r.b)) = .ok i) (s : State) :
    exec i s = .next (transactEdge r s) := by
  obtain ⟨op, a, b⟩ := r
  obtain ⟨hop, ha, hb⟩ := treqWord_fields op.code a b
  simp only [decode, decodeTReq, hop, ha, hb] at h
  cases op <;> cases h <;> rfl

section
variable {r : TReq} {s : State} (hr : s.request ≠ some r)
include hr

/-- Another master's transaction touches what is behind the port only, beside the edge without an acknowledge. -/
theorem transactEdge_frame : ∃ sel c o u, transactEdge r s =
    { sequencer (withoutAck s.pins) s with selected := sel, devCfg := c, devOpen := o, devRun := u } := by
  rw [transactEdge_other hr]
  split
  · exact transactionEnd_frame r _ _ _
  · exact ⟨_, _, _, _, rfl⟩

theorem transactEdge_behindPort_of_no_ack (hack : s.pins.ack = false) : SameBehindPort s (transactEdge r s) := by
  rw [transactEdge_other hr, hack, if_neg Bool.false_ne_true]
  exact sequencer_behindPort_of_no_ack s rfl

theorem transactEdge_behindPort_of_ack (hack : s.pins.ack = true) :
    SameBehindPort (transactionEnd r s.pins.err s.pins.rdata s) (transactEdge r s) := by
  rw [transactEdge_other hr, if_pos hack]
  exact (sequencer_behindPort_of_no_ack s rfl).transactionEnd r _ _ (sequencer_edge _ s)

/-- The sequencer does not read its pins from the state, so the edge of the statement is the edge taken. -/
theorem transactEdge_waitsBeside : WaitsBeside s (transactEdge r s) := by
  have hrun := (unread_pins (withoutAck s.pins) s).sequencer_assign (withoutAck s.pins)
  obtain ⟨sel, c, o, u, ht⟩ := transactEdge_frame hr
  have hpins := sequencer_pins (withoutAck s.pins) s
  have hread := sequencer_hRdata (withoutAck s.pins) s
  refine ⟨_, congrArg (fun v => Host.Outcome.next (latchRead 0 s v)) hrun, ?_⟩
  rw [ht]
  generalize sequencer (withoutAck s.pins) s = v at hpins hread
  rw [← hpins, ← hread]
  rfl

end

theorem request_ne_of_tReqOut {s : State} (h : s.tReqOut = false) (r : TReq) : s.request ≠ some r := by
  intro hr
  simp [State.tReqOut, hr] at h

/-- Settles O40: `sequencer_waits_frame` gives the FSM state. -/
theorem otherMasterWhileBusy : Obligations.OtherMasterWhileBusy := by
  intro s r i hreq hi hr
  refine ⟨_, exec_of_decode_treq hi s, transactEdge_waitsBeside hr, ?_⟩
  obtain ⟨sel, c, o, u, ht⟩ := transactEdge_frame hr
  obtain ⟨el, hwait⟩ := sequencer_waits_frame (p := withoutAck s.pins) hreq rfl
  rw [ht, hwait]

end Sys2Proof.Machine
end

section
/-! PROOFS. What the end of each transport operation does behind the port (R74, R140 to R150), and the statements on the
configuration write, the Start command and another master's transactions. -/

namespace Sys2Proof.Machine

/-! The end of a transaction, one equation per transport operation -/

theorem transactionEnd_select (a b : Byte) (err : Bool) (d : Half) (s : State) :
    transactionEnd ⟨.select, a, b⟩ err d s = { s with selected := if err then none else some a } := by
  cases err <;> rfl

theorem transactionEnd_writeCmd (a b : Byte) (err : Bool) (d : Half) (s : State) :
    transactionEnd ⟨.writeCmd, a, b⟩ err d s =
      if err = false ∧ a = cmdStart then startDevice s else forgetDevice s := by
  cases err <;> simp [transactionEnd, transactionOk, transactionFailed]

theorem transactionEnd_writeCmdData (a b : Byte) (err : Bool) (d : Half) (s : State) :
    transactionEnd ⟨.writeCmdData, a, b⟩ err d s =
      if err = false ∧ a = cmdWconfig then configureDevice b s else forgetDevice s := by
  cases err <;> simp [transactionEnd, transactionOk, transactionFailed]

theorem transactionEnd_readByte (a b : Byte) (err : Bool) (d : Half) (s : State) :
    transactionEnd ⟨.readByte, a, b⟩ err d s =
      if err = false ∧ a = cmdRstatus then s
      else if err = false ∧ a = cmdRconfig then learnConfig (d.extractLsb' 0 8) s
      else forgetDevice s := by
  cases err <;> simp [transactionEnd, transactionOk, transactionFailed]

theorem transactionEnd_readWord (a b : Byte) (err : Bool) (d : Half) (s : State) :
    transactionEnd ⟨.readWord, a, b⟩ err d s =
      if err = false ∧ a = cmdRdata then s else forgetDevice s := by
  cases err <;> simp [transactionEnd, transactionOk, transactionFailed]

/-- Only a SELECT changes the selected address (R146). -/
theorem transactionEnd_selected {r : TReq} (hop : r.op ≠ .select) (err : Bool) (d : Half) (s : State) :
    (transactionEnd r err d s).selected = s.selected := by
  obtain ⟨op, a, b⟩ := r
  cases op
  case select => exact absurd rfl hop
  case writeCmd => rw [transactionEnd_writeCmd]; split <;> rfl
  case writeCmdData => rw [transactionEnd_writeCmdData]; split <;> rfl
  case readByte =>
    rw [transactionEnd_readByte, learnConfig_frame]
    (repeat' split) <;> rfl
  case readWord => rw [transactionEnd_readWord]; split <;> rfl

theorem transactEdge_selected {r : TReq} {s : State} (hr : s.request ≠ some r) (hop : r.op ≠ .select) :
    (transactEdge r s).selected = s.selected := by
  cases hack : s.pins.ack
  · exact (transactEdge_behindPort_of_no_ack hr hack).selected
  · exact (transactEdge_behindPort_of_ack hr hack).selected.trans (transactionEnd_selected hop _ _ s)

theorem SameBehindPort.forgotten {s t : State} (h : SameBehindPort (forgetDevice s) t) : DeviceForgotten s t :=
  (forgetDevice_forgotten s).of_eq h.devCfg h.devOpen h.devRun

theorem SameBehindPort.configured {v : Byte} {s t : State} (h : SameBehindPort (configureDevice v s) t) :
    DeviceConfigured v s t :=
  (configureDevice_configured v s).of_eq h.devCfg h.devOpen h.devRun

theorem SameBehindPort.started {s t : State} (h : SameBehindPort (startDevice s) t) : DeviceStarted s t :=
  (startDevice_started s).of_eq h.devCfg h.devOpen h.devRun

/-- The byte that came back settles a register that is open and changes no other (R143, log 9). -/
theorem SameBehindPort.learned {v : Byte} {s t : State} (h : SameBehindPort (learnConfig v s) t) :
    (s.configOpen s.target.toNat = true → DeviceConfigured v s t) ∧
    (s.configOpen s.target.toNat = false → DeviceSame s t) := by
  unfold learnConfig at h
  split at h <;> rename_i hopen
  · exact ⟨fun _ => h.configured, fun hf => by simp [hf] at hopen⟩
  · exact ⟨fun ht => absurd ht hopen, fun _ => h.deviceSame⟩

/-- The byte that came back is the low half of the read data. -/
theorem readByte_eq (d : Half) : d.extractLsb' 0 8 = d.truncate 8 :=
  (BitVec.setWidth_eq_extractLsb' (by decide)).symm

section
variable {a b : Byte} {err : Bool} {d : Half} {s t : State}

theorem writeCmd_devices (h : SameBehindPort (transactionEnd ⟨.writeCmd, a, b⟩ err d s) t) :
    if err = false ∧ a = cmdStart then DeviceStarted s t else DeviceForgotten s t := by
  rw [transactionEnd_writeCmd] at h
  split at h
  · rw [if_pos ‹_›]; exact h.started
  · rw [if_neg ‹_›]; exact h.forgotten

theorem writeCmdData_devices (h : SameBehindPort (transactionEnd ⟨.writeCmdData, a, b⟩ err d s) t) :
    if err = false ∧ a = cmdWconfig then DeviceConfigured b s t else DeviceForgotten s t := by
  rw [transactionEnd_writeCmdData] at h
  split at h
  · rw [if_pos ‹_›]; exact h.configured
  · rw [if_neg ‹_›]; exact h.forgotten

theorem readByte_devices (h : SameBehindPort (transactionEnd ⟨.readByte, a, b⟩ err d s) t) :
    if err = false ∧ a = cmdRstatus then DeviceSame s t
    else if err = false ∧ a = cmdRconfig then
      (if s.configOpen s.target.toNat then DeviceConfigured (d.truncate 8) s t else DeviceSame s t)
    else DeviceForgotten s t := by
  rw [transactionEnd_readByte, readByte_eq] at h
  split at h
  · rw [if_pos ‹_›]; exact h.deviceSame
  · rw [if_neg ‹_›]
    split at h
    · rw [if_pos ‹_›]
      obtain ⟨hsettled, hkept⟩ := h.learned
      split
      · exact hsettled ‹_›
      · exact hkept (Bool.eq_false_iff.2 ‹_›)
    · rw [if_neg ‹_›]; exact h.forgotten

theorem readWord_devices (h : SameBehindPort (transactionEnd ⟨.readWord, a, b⟩ err d s) t) :
    if err = false ∧ a = cmdRdata then DeviceSame s t else DeviceForgotten s t := by
  rw [transactionEnd_readWord] at h
  split at h
  · rw [if_pos ‹_›]; exact h.deviceSame
  · rw [if_neg ‹_›]; exact h.forgotten

end

/-! The block's configuration write and Start command -/

theorem goOn_of_capture {next : State → State} {s : State} (h : s.cmd = 7) : goOn next s = next s :=
  if_pos (decide_eq_true h)

theorem goOn_of_other {next : State → State} {s : State} (h : s.cmd ≠ 7) : goOn next s = complete .ok s :=
  if_neg fun hcap => h (of_decide_eq_true hcap)

/-- Behind the port the edge that acknowledges the block's request is the end of its transaction. -/
theorem sequencer_behindPort_of_request {p : Pins} {s : State} {r : TReq} (hreq : s.request = some r)
    (hack : p.ack = true) : SameBehindPort (transactionEnd r p.err p.rdata s) (sequencer p s) := by
  have h := sequencer_behindPort p s
  rwa [if_pos hack, served_of_request hreq] at h

/-- The edge of a transaction state from which CAPTURE goes on, case by case (R177). -/
theorem goOn_edge_cases {p : Pins} {s t : State} {k : ErrStep} {next : State → State} {r : TReq}
    (hreq : s.request = some r)
    (ht : t =
      if p.ack then
        if p.err then raise (.transport k) (served p s) else goOn next (served p s)
      else s) :
    (p.ack = false → t = s) ∧
    (p.ack = true → p.err = true → t = raise (.transport k) (transactionEnd r true p.rdata s)) ∧
    (p.ack = true → p.err = false → s.cmd ≠ 7 → t = complete .ok (transactionEnd r false p.rdata s)) ∧
    (p.ack = true → p.err = false → s.cmd = 7 → t = next (transactionEnd r false p.rdata s)) := by
  rw [served_of_request hreq] at ht
  refine ⟨fun hack => ?_, fun hack herr => ?_, fun hack herr hc => ?_, fun hack herr hc => ?_⟩ <;> rw [hack] at ht
  · exact ht
  · rwa [herr] at ht
  · rw [herr] at ht
    exact ht.trans (goOn_of_other (by simpa using hc))
  · rw [herr] at ht
    exact ht.trans (goOn_of_capture (by simpa using hc))

/-- Settles O30: the block by the cases of its edge, the devices by the end of the transaction. -/
theorem configTransaction : Obligations.ConfigTransaction := by
  intro s hs
  have hreq : s.request = some ⟨.writeCmdData, cmdWconfig, cfgSent s.cfg⟩ := by simp [State.request, hs]
  have hown := transactEdge_own hreq
  have hdevices (hack : s.pins.ack = true) := writeCmdData_devices (sequencer_behindPort_of_request hreq hack)
  obtain ⟨hwaits, hfailed, hother, hcapture⟩ := goOn_edge_cases hreq (sequencer_tCfg s.pins s hs)
  refine ⟨sequencer s.pins s, ?_, congrArg _ hown, hwaits, fun hack => ⟨fun herr => ⟨?_, ?_⟩,
    fun herr => ⟨?_, fun hc => ?_, fun hc => ?_⟩⟩⟩
  · simp only [exec, execDvWriteConfig, configByte_of_cfg, hown]
  · simpa [herr] using hdevices hack
  · rw [hfailed hack herr]; rfl
  · simpa [herr, cfgSent] using hdevices hack
  · rw [hother hack herr hc]; rfl
  · rw [hcapture hack herr hc]; rfl

/-- Settles O31: the block by the cases of its edge, the devices by the end of the transaction. -/
theorem startTransaction : Obligations.StartTransaction := by
  intro s hs
  have hreq : s.request = some ⟨.writeCmd, cmdStart, 0⟩ := by simp [State.request, hs]
  have hown := transactEdge_own hreq
  have hdevices (hack : s.pins.ack = true) := writeCmd_devices (sequencer_behindPort_of_request hreq hack)
  obtain ⟨hwaits, hfailed, hother, hcapture⟩ := goOn_edge_cases hreq (sequencer_tStart s.pins s hs)
  refine ⟨sequencer s.pins s, congrArg _ hown, congrArg _ hown, hwaits, fun hack => ⟨fun herr => ⟨?_, ?_⟩,
    fun herr => ⟨?_, fun hc => ?_, fun hc => ?_⟩⟩⟩
  · simpa [herr] using hdevices hack
  · rw [hfailed hack herr]; rfl
  · simpa [herr] using hdevices hack
  · rw [hother hack herr hc]; rfl
  · rw [hcapture hack herr hc]; rfl

/-! Another master's transaction while the block drives no request -/

/-- A transaction in IDLE touches what is behind the port only. -/
theorem transactEdge_idle {r : TReq} {s : State} (hs : s.st = .idle) :
    ∃ sel c o u, transactEdge r s = { s with selected := sel, devCfg := c, devOpen := o, devRun := u } := by
  have hr : s.request ≠ some r := by simp [State.request, hs]
  have h := transactEdge_frame hr
  rwa [sequencer_idle _ _ hs] at h

/-- Settles O38: the edge by `transactEdge_waitsBeside`, the effect behind the port by the end of each operation. -/
theorem otherMasterTransaction : Obligations.OtherMasterTransaction := by
  intro s a b hreq
  refine ⟨fun i hi => ?_, fun hack => ?_⟩
  · obtain ⟨r, hrun⟩ := exec_transaction hi
    have hr := request_ne_of_tReqOut hreq r
    refine ⟨_, hrun s, transactEdge_waitsBeside hr, fun hs => ?_, fun hack => ?_⟩
    · obtain ⟨sel, c, o, u, h⟩ := transactEdge_idle (r := r) hs
      rw [h]
    · obtain ⟨hsel, hcfg, hopen, hrun⟩ := transactEdge_behindPort_of_no_ack hr hack
      exact ⟨hsel, hcfg, hopen, hrun⟩
  have hport (r : TReq) : SameBehindPort (transactionEnd r s.pins.err s.pins.rdata s) (transactEdge r s) :=
    transactEdge_behindPort_of_ack (request_ne_of_tReqOut hreq r) hack
  have hsel (r : TReq) (hop : r.op ≠ .select) : (transactEdge r s).selected = s.selected :=
    transactEdge_selected (request_ne_of_tReqOut hreq r) hop
  have hselect := hport ⟨.select, a, b⟩
  rw [transactionEnd_select] at hselect
  exact ⟨⟨_, rfl, hselect.selected, .of_eq hselect.devCfg hselect.devOpen hselect.devRun⟩,
    ⟨_, rfl, hsel _ nofun, writeCmd_devices (hport _)⟩, ⟨_, rfl, hsel _ nofun, writeCmdData_devices (hport _)⟩,
    ⟨_, rfl, hsel _ nofun, readByte_devices (hport _)⟩, ⟨_, rfl, hsel _ nofun, readWord_devices (hport _)⟩⟩

/-- Settles O39: the end of a READ_BYTE of 0x20, and `transactEdge_waitsBeside` for the block. -/
theorem readConfigCommand : Obligations.ReadConfigCommand := by
  intro s hreq
  have hr := request_ne_of_tReqOut hreq ⟨.readByte, cmdRconfig, 0⟩
  have hne : cmdRconfig ≠ cmdRstatus := by decide
  have hdevices (hack : s.pins.ack = true) := readByte_devices (transactEdge_behindPort_of_ack hr hack)
  refine ⟨_, rfl, transactEdge_waitsBeside hr, transactEdge_selected hr nofun, fun hack => ?_,
    fun hack herr => ⟨fun hopen => ?_, fun hopen => ?_⟩, fun hack herr => ?_⟩
  · exact (transactEdge_behindPort_of_no_ack hr hack).deviceSame
  · simpa [herr, hne, hopen] using hdevices hack
  · simpa [herr, hne, hopen] using hdevices hack
  · simpa [herr] using hdevices hack

end Sys2Proof.Machine
end

section
/-! PROOFS. The decoder on the word of each kind of instruction, by format (R91 to R108). -/

namespace Sys2Proof

/-! Host words (R105, R106) -/

@[simp] theorem HostOp.encode_instr (op : HostOp) (x : BitVec 28) : encode (op.instr x) = encodeOp op x := by cases op <;> rfl

@[simp] theorem HostOp.instr_wf (op : HostOp) (x : BitVec 28) : (op.instr x).wf = true := by cases op <;> rfl

@[simp] theorem HostOp.definedOpCode_code (op : HostOp) : definedOpCode op.code = true := by cases op <;> rfl

theorem decodeHost_join (b : BitVec 1) (a : BitVec 5) (d : Word) :
    decodeHost (b ++ a ++ d) = if b.getLsbD 0 then decodeWrite a d else .rd a d := by
  obtain ⟨hwe, haddr, hdata⟩ := hostWord_fields b a d
  rw [decodeHost, hwe, haddr, hdata]

/-- A write of an operation's code to CMD is that operation (R126). -/
theorem decodeWrite_op (op : HostOp) (x : BitVec 28) : decodeWrite 0 (x ++ op.code) = op.instr x := by
  obtain ⟨hcode, hrest⟩ := cmdWord_fields x op.code
  simp [decodeWrite, hcode, hrest]

/-- A word written to CMD names an operation, or its low four bits are a reserved code (R101, R105). -/
theorem cmdWord_cases (d : Word) :
    (∃ (op : HostOp) (x : BitVec 28), d = x ++ op.code) ∨
    (HostOp.ofCode (d.extractLsb' 0 4) = none ∧ definedOpCode (d.extractLsb' 0 4) = false) := by
  rw [← HostOp.ofCode_isSome]
  cases hop : HostOp.ofCode (d.extractLsb' 0 4) with
  | none => exact .inr ⟨rfl, rfl⟩
  | some op =>
    have hcode := (HostOp.ofCode_eq_some _ op).1 hop
    exact .inl ⟨op, d.extractLsb' 4 28, by rw [← hcode]; exact (cmdWord_join d).symm⟩

/-- A write is an operation when it goes to CMD with a defined code, and a well-formed WR otherwise (R105, R126). -/
theorem decodeWrite_cases (a : BitVec 5) (d : Word) :
    (∃ (op : HostOp) (x : BitVec 28), a = 0 ∧ d = x ++ op.code ∧ decodeWrite a d = op.instr x) ∨
    ((Instr.wr a d).wf = true ∧ decodeWrite a d = .wr a d) := by
  by_cases ha : a = 0#5
  · obtain ⟨op, x, hd⟩ | ⟨hnone, hdef⟩ := cmdWord_cases d
    · exact .inl ⟨op, x, ha, hd, by rw [ha, hd]; exact decodeWrite_op op x⟩
    · exact .inr ⟨by simp [Instr.wf, hdef], by simp [decodeWrite, hnone]⟩
  · exact .inr ⟨by simp [Instr.wf, ha], if_neg ha⟩

theorem decodeWrite_of_wf {a : BitVec 5} {d : Word} (h : (Instr.wr a d).wf = true) : decodeWrite a d = .wr a d := by
  obtain ⟨op, x, rfl, rfl, -⟩ | ⟨-, hwr⟩ := decodeWrite_cases a d
  · simp [Instr.wf, (cmdWord_fields x op.code).1] at h
  · exact hwr

theorem decode_encodeOp (op : HostOp) (x : BitVec 28) : decode (encodeOp op x) = .ok (op.instr x) :=
  congrArg Except.ok ((decodeHost_join 1 0 (x ++ op.code)).trans (decodeWrite_op op x))

/-! Transport request words (R102) -/

/-- The constructor of a transport operation. -/
def TOp.instr : TOp → Byte → Byte → Instr
  | .select => .tSelect
  | .writeCmd => .tWriteCmd
  | .writeCmdData => .tWriteCmdData
  | .readByte => .tReadByte
  | .readWord => .tReadWord

@[simp] theorem TOp.encode_instr (op : TOp) (a b : Byte) : encode (op.instr a b) = encodeTReq op a b := by cases op <;> rfl

@[simp] theorem TOp.instr_wf (op : TOp) (a b : Byte) : (op.instr a b).wf = true := by cases op <;> rfl

theorem decode_encodeTReq (op : TOp) (a b : Byte) : decode (encodeTReq op a b) = .ok (op.instr a b) := by
  obtain ⟨hop, ha, hb⟩ := treqWord_fields op.code a b
  simp only [encodeTReq, decode, decodeTReq, hop, ha, hb]
  cases op <;> rfl

/-! Configuration words (R93, R96) -/

/-- The mux has eight values and the gain two. -/
theorem decode_encode_dvWriteConfig (mux : BitVec 3) (gain : BitVec 1) :
    decode (encode (.dvWriteConfig mux gain)) = .ok (.dvWriteConfig mux gain) := by
  revert mux gain; decide

/-- Settles O1: by instruction, from the fields of the word of its format. -/
theorem decodeEncode : Obligations.DecodeEncode := by
  intro i hwf
  cases i with
  | rd a g => exact congrArg Except.ok (decodeHost_join 0 a g)
  | wr a d => exact congrArg Except.ok ((decodeHost_join 1 a d).trans (decodeWrite_of_wf hwf))
  | select x => exact decode_encodeOp .select x
  | devReset x => exact decode_encodeOp .devReset x
  | wrcfg x => exact decode_encodeOp .wrcfg x
  | start x => exact decode_encodeOp .start x
  | waitrdy x => exact decode_encodeOp .waitrdy x
  | rdraw x => exact decode_encodeOp .rdraw x
  | capture x => exact decode_encodeOp .capture x
  | code2v x => exact decode_encodeOp .code2v x
  | v2in x => exact decode_encodeOp .v2in x
  | dcal x => exact decode_encodeOp .dcal x
  | v2ph x => exact decode_encodeOp .v2ph x
  | v2phu x => exact decode_encodeOp .v2phu x
  | dvReset | dvStartSync | dvReadData | dvReadConfig | dvReadStatus => rfl
  | dvWriteConfig mux gain => exact decode_encode_dvWriteConfig mux gain
  | tSelect a b => exact decode_encodeTReq .select a b
  | tWriteCmd a b => exact decode_encodeTReq .writeCmd a b
  | tWriteCmdData a b => exact decode_encodeTReq .writeCmdData a b
  | tReadByte a b => exact decode_encodeTReq .readByte a b
  | tReadWord a b => exact decode_encodeTReq .readWord a b

end Sys2Proof
end

section
/-! PROOFS. What the decoder answers to each kind of word: an instruction whose word it is, or the refusal of a word that is
no row of the opcode table (R97, R102, R108, log 12). -/

namespace Sys2Proof

/-- The answers to a word `w`: where `row` holds a well-formed instruction whose word it is, the refusal `e` otherwise. -/
inductive Reads (w : PortWord) (row : Prop) (e : DecodeError) : Except DecodeError Instr → Prop where
  | ok (i : Instr) (hrow : row) (hwf : i.wf = true) (hword : encode i = w) : Reads w row e (.ok i)
  | error (hrow : ¬ row) : Reads w row e (.error e)

theorem Reads.wf_and_word {w : PortWord} {row : Prop} {e : DecodeError} {i : Instr} (h : Reads w row e (.ok i)) :
    i.wf = true ∧ encode i = w := by
  cases h with
  | ok _ _ hwf hword => exact ⟨hwf, hword⟩

theorem Reads.eq_error_iff {w : PortWord} {row : Prop} {e : DecodeError} {r : Except DecodeError Instr}
    (h : Reads w row e r) : r = .error e ↔ ¬ row := by
  cases h with
  | ok i hrow => simp [hrow]
  | error hrow => simp [hrow]

/-- Every write is a row of the table (R105). -/
theorem decodeWrite_wf_and_word (a : BitVec 5) (d : Word) :
    (decodeWrite a d).wf = true ∧ encode (decodeWrite a d) = encodeWrite a d := by
  obtain ⟨op, x, rfl, rfl, hop⟩ | ⟨hwf, hwr⟩ := decodeWrite_cases a d
  · rw [hop]
    exact ⟨op.instr_wf x, op.encode_instr x⟩
  · rw [hwr]
    exact ⟨hwf, rfl⟩

/-- Every host word is a row of the table (R105). -/
theorem decodeHost_wf_and_word (w : BitVec 38) : (decodeHost w).wf = true ∧ encode (decodeHost w) = .host w := by
  rw [← hostWord_join w, decodeHost_join]
  cases w.getLsbD 37
  · exact ⟨rfl, rfl⟩
  · exact decodeWrite_wf_and_word _ _

theorem decode_devCmd_reads (w : BitVec 8) : Reads (.devCmd w)
    (w = 0x06 ∨ w = 0x08 ∨ w = 0x10 ∨ w = 0x20 ∨ w = 0x24) .deviceCommand (decode (.devCmd w)) := by
  by_cases hrow : w = 0x06 ∨ w = 0x08 ∨ w = 0x10 ∨ w = 0x20 ∨ w = 0x24
  · obtain rfl | rfl | rfl | rfl | rfl := hrow <;> exact .ok _ (by decide) rfl rfl
  · have herror : decode (.devCmd w) = .error .deviceCommand := by
      simp only [← BitVec.toNat_inj] at hrow
      rw [decode, decodeDevCmd]
      split <;> simp_all
    rw [herror]
    exact .error hrow

/-- A configuration word is its command byte and the two halves of its configuration byte. -/
theorem configWord_join (w : BitVec 16) :
    w.extractLsb' 8 8 ++ (w.extractLsb' 4 4 ++ w.extractLsb' 0 4) = w := by
  have hlow : w.extractLsb' 4 4 ++ w.extractLsb' 0 4 = w.extractLsb' 0 8 :=
    BitVec.extractLsb'_append_extractLsb'_eq_extractLsb' rfl
  have hjoin : w.extractLsb' 8 8 ++ w.extractLsb' 0 8 = w.extractLsb' 0 16 :=
    BitVec.extractLsb'_append_extractLsb'_eq_extractLsb' rfl
  rw [hlow, hjoin, BitVec.extractLsb'_eq_self]

/-- The bits of a configuration word under the mask of its row. -/
theorem configWord_masked (w : BitVec 16) :
    w &&& 0xFF0F#16 = w.extractLsb' 8 8 ++ (0#4 ++ w.extractLsb' 0 4) := by
  calc w &&& 0xFF0F#16
      = (w.extractLsb' 8 8 ++ (w.extractLsb' 4 4 ++ w.extractLsb' 0 4)) &&&
          (BitVec.allOnes 8 ++ (0#4 ++ BitVec.allOnes 4)) := by rw [configWord_join]; rfl
    _ = w.extractLsb' 8 8 ++ (0#4 ++ w.extractLsb' 0 4) := by
        simp only [BitVec.and_append, BitVec.and_allOnes, BitVec.and_zero]

/-- The row of DEV_WRITE_CONFIG: the command 0x40 and a configuration byte with bits 3:0 zero (R93, R145). -/
theorem configWord_row_iff (w : BitVec 16) :
    w &&& 0xFF0F#16 = 0x4000#16 ↔ w.extractLsb' 8 8 = 0x40#8 ∧ w.extractLsb' 0 4 = 0#4 := by
  rw [configWord_masked]
  constructor
  · intro h
    have hbyte := congrArg (BitVec.extractLsb' 0 8) h
    rw [BitVec.extractLsb'_append_eq_right] at hbyte
    have hcmd := congrArg (BitVec.extractLsb' 8 8) h
    have hlow := congrArg (BitVec.extractLsb' 0 4) hbyte
    rw [BitVec.extractLsb'_append_eq_left] at hcmd
    rw [BitVec.extractLsb'_append_eq_right] at hlow
    exact ⟨hcmd, hlow⟩
  · rintro ⟨hcmd, hlow⟩
    rw [hcmd, hlow]
    rfl

/-- A word of that row is the word of the mux and the gain in it (R96). -/
theorem encode_dvWriteConfig_of_row {w : BitVec 16} (hcmd : w.extractLsb' 8 8 = 0x40#8)
    (hlow : w.extractLsb' 0 4 = 0#4) :
    encode (.dvWriteConfig (w.extractLsb' 5 3) (w.extractLsb' 4 1)) = .devCmdData w := by
  have hhigh : w.extractLsb' 5 3 ++ w.extractLsb' 4 1 = w.extractLsb' 4 4 :=
    BitVec.extractLsb'_append_extractLsb'_eq_extractLsb' rfl
  rw [encode, configByte, ← hcmd, ← hlow, hhigh]
  exact congrArg PortWord.devCmdData (configWord_join w)

theorem decode_devCmdData_reads (w : BitVec 16) :
    Reads (.devCmdData w) (w &&& 0xFF0F#16 = 0x4000#16) .deviceConfig (decode (.devCmdData w)) := by
  rw [configWord_row_iff, decode, decodeDevCmdData]
  split
  · rename_i hrow
    obtain ⟨hcmd, hlow⟩ := hrow
    exact .ok _ ⟨hcmd, hlow⟩ rfl (encode_dvWriteConfig_of_row hcmd hlow)
  · exact .error ‹_›

/-- The operation's code is all that stands above the two bytes of a request word. -/
theorem treqWord_code (w : BitVec 19) : (w.extractLsb' 16 3).toNat = (w >>> 16).toNat := by
  have hlt := w.isLt
  rw [BitVec.extractLsb'_toNat, BitVec.toNat_ushiftRight, Nat.shiftRight_eq_div_pow]
  omega

/-- A request word with the code of an operation is the word of that operation (R102). -/
theorem treq_reads_of_code {w : BitVec 19} {op : TOp} (h : w.extractLsb' 16 3 = op.code) : Reads (.treq w)
    ((w >>> 16).toNat < 5) .transportOp (.ok (op.instr (w.extractLsb' 8 8) (w.extractLsb' 0 8))) := by
  refine .ok _ ?_ (TOp.instr_wf op _ _) ?_
  · rw [← treqWord_code, h]; cases op <;> decide
  · rw [TOp.encode_instr, encodeTReq, ← h, treqWord_join]

theorem decode_treq_reads (w : BitVec 19) :
    Reads (.treq w) ((w >>> 16).toNat < 5) .transportOp (decode (.treq w)) := by
  simp only [decode, decodeTReq]
  split
  · exact treq_reads_of_code (op := .select) (BitVec.eq_of_toNat_eq ‹_›)
  · exact treq_reads_of_code (op := .writeCmd) (BitVec.eq_of_toNat_eq ‹_›)
  · exact treq_reads_of_code (op := .writeCmdData) (BitVec.eq_of_toNat_eq ‹_›)
  · exact treq_reads_of_code (op := .readByte) (BitVec.eq_of_toNat_eq ‹_›)
  · exact treq_reads_of_code (op := .readWord) (BitVec.eq_of_toNat_eq ‹_›)
  · rename_i h0 h1 h2 h3 h4
    simp only [treqWord_code, imp_false] at h0 h1 h2 h3 h4
    exact .error fun hlt => by omega

/-- Settles O2: by format, from what the decoder answers to a word of it. -/
theorem encodeDecode : Obligations.EncodeDecode := by
  intro w i h
  cases w with
  | host w => cases h; exact decodeHost_wf_and_word w
  | devCmd w => exact (h ▸ decode_devCmd_reads w).wf_and_word
  | devCmdData w => exact (h ▸ decode_devCmdData_reads w).wf_and_word
  | treq w => exact (h ▸ decode_treq_reads w).wf_and_word

/-- Settles O4: `Reads.eq_error_iff` for each format with reserved words; a host word is read outright. -/
theorem reservedWordsRefused : Obligations.ReservedWordsRefused := by
  refine ⟨fun w => ?_, fun w => ?_, fun w => (decode_devCmdData_reads w).eq_error_iff, fun w => ⟨_, rfl⟩⟩
  · simpa using (decode_treq_reads w).eq_error_iff
  · simpa using (decode_devCmd_reads w).eq_error_iff

end Sys2Proof
end

section
/-! PROOFS. Words written out, the configuration byte (R96), the device commands as transactions (R92), a presented word
(log 13) and the write to CMD (R126). -/

namespace Sys2Proof.Machine

/-- Settles O3: the decoder evaluated on the eight words. -/
theorem wordsDecode : Obligations.WordsDecode := by
  unfold Obligations.WordsDecode
  decide

/-- The mux and the gain of a configuration byte (R93, R96). -/
theorem configByte_fields (mux : BitVec 3) (gain : BitVec 1) :
    (configByte mux gain).extractLsb' 5 3 = mux ∧ (configByte mux gain).extractLsb' 4 1 = gain := by
  revert mux gain; decide

/-- Bits 3:0 of a configuration byte are zero (R96). -/
theorem configByte_low (mux : BitVec 3) (gain : BitVec 1) : (configByte mux gain).extractLsb' 0 4 = 0 :=
  BitVec.extractLsb'_append_eq_right

/-- The byte sent, as R96 writes it. -/
theorem cfgSent_eq_shifts (c : Byte) : cfgSent c = ((c >>> 5) <<< 5) ||| (((c >>> 4) &&& 1) <<< 4) := by
  revert c; decide

/-- Settles O54: the byte sent is a configuration byte (`configByte_of_cfg`), whose fields are known. -/
theorem configByteSent : Obligations.ConfigByteSent := by
  refine ⟨fun c => ⟨(configByte_of_cfg c).symm, cfgSent_eq_shifts c, ?_⟩, configByte_fields⟩
  rw [← configByte_of_cfg]
  exact configByte_low _ _

/-- Settles O27: both sides run the same request. -/
theorem deviceCommandIsTransaction : Obligations.DeviceCommandIsTransaction :=
  fun _ => ⟨rfl, rfl, rfl, rfl, rfl, fun _ _ => rfl⟩

/-! A presented word -/

/-- A presented word is the word of the next cycle, and nothing else of the state is touched (log 13). -/
theorem sampled_present (w : PortWord) (s : State) :
    (s.present w).sampled = { s with pins := presentPins w, edge := s.edge + 1 } := rfl

theorem presentPins_no_rst_no_tick (w : PortWord) : (presentPins w).rst = false ∧ (presentPins w).tick = false := by
  cases w <;> exact ⟨rfl, rfl⟩

theorem decodeTableWord_eq_some {nbits w : Nat} {i : Instr} (h : decodeTableWord nbits w = some i) :
    ∃ p, PortWord.ofTable nbits w = some p ∧ decode p = .ok i := by
  unfold decodeTableWord at h
  split at h
  · cases h
  · rename_i p hp
    split at h
    · rename_i j hj
      cases h
      exact ⟨p, hp, hj⟩
    · cases h

theorem withFetchWord_of_ofTable {nbits w : Nat} {p : PortWord} (h : PortWord.ofTable nbits w = some p) (s : State) :
    s.withFetchWord nbits w = s.present p := by
  simp [State.withFetchWord, h]

/-- Settles O6: the step of the state with the word presented, whose pins are `presentPins`. -/
theorem stepRunsPresentedWord : Obligations.StepRunsPresentedWord := by
  intro s nbits w i h
  obtain ⟨p, hp, hi⟩ := decodeTableWord_eq_some h
  obtain ⟨hrst, htick⟩ := presentPins_no_rst_no_tick p
  refine ⟨presentPins p, hrst, htick, ?_⟩
  have hstep : step (s.present p) = exec i (s.present p).sampled := step_of_decode_ok hrst hi
  rw [withFetchWord_of_ofTable hp, hstep, sampled_present]

/-! A write to CMD -/

theorem lowNibble_toNat (d : Word) : (d &&& 0xF).toNat = (d.extractLsb' 0 4).toNat := by
  rw [BitVec.toNat_and, BitVec.extractLsb'_toNat]
  exact Nat.and_two_pow_sub_one_eq_mod d.toNat 4

/-- The reserved codes of CMD are 0 and 13 to 15 (R105). -/
theorem definedOpCode_of_reserved {d : Word} (h : d &&& 0xF = 0 ∨ 13 ≤ (d &&& 0xF).toNat) :
    definedOpCode (d.extractLsb' 0 4) = false := by
  rw [← BitVec.toNat_inj, lowNibble_toNat] at h
  change _ = 0 ∨ _ at h
  simp only [definedOpCode, decide_eq_false_iff_not]
  omega

theorem writeCmdReg_reserved {d : Word} (h : definedOpCode (d.extractLsb' 0 4) = false) (s : State) :
    writeCmdReg d s = s.hostError := by
  obtain ⟨-, herror⟩ | ⟨op, hop, -⟩ := writeCmdReg_cases d s
  · exact herror
  · rw [← HostOp.ofCode_isSome, hop] at h
    cases h

/-- Settles O20: an issue runs as the write of its code to CMD (`exec_instr`), and a reserved code is a host error. -/
theorem writeCmd : Obligations.WriteCmd := by
  refine ⟨fun s x op => (exec_instr op x s).symm, fun s x op => ?_, fun s d hs hd => ?_⟩
  · cases op <;> rfl
  · rw [exec_wr_cmd d hs, writeCmdReg_reserved (definedOpCode_of_reserved hd)]
    rfl

end Sys2Proof.Machine
end

section
/-! PROOFS. The host port (R120 to R128): every instruction has a next state, the reads, the writes of a register and
the acceptance of an operation. -/

namespace Sys2Proof.Machine

/-! Every edge of a host port cycle has a next state (R125, R233, R266) -/

theorem exec_wr_next (n : BitVec 5) (d : Word) (s : State) : ∃ t, exec (.wr n d) s = .next t := by
  by_cases h1 : n = 1
  · subst h1
    exact ⟨_, exec_wr_status d s⟩
  by_cases hb : s.st = .idle
  · by_cases h0 : n = 0
    · subst h0
      exact ⟨_, exec_wr_cmd d hb⟩
    · exact ⟨_, exec_wr_register d h1 h0 hb⟩
  · exact ⟨_, exec_wr_busy d h1 hb⟩

/-- A write of the host port runs as an operation's constructor or as a WR. -/
theorem exec_decodeWrite_next (a : BitVec 5) (d : Word) (s : State) : ∃ t, exec (decodeWrite a d) s = .next t := by
  obtain ⟨op, x, -, -, hop⟩ | ⟨-, hwr⟩ := decodeWrite_cases a d
  · rw [hop]
    exact ⟨_, exec_instr op x s⟩
  · rw [hwr]
    exact exec_wr_next a d s

theorem exec_decodeHost_next (w : BitVec 38) (s : State) : ∃ t, exec (decodeHost w) s = .next t := by
  unfold decodeHost
  split
  · exact exec_decodeWrite_next _ _ s
  · exact ⟨_, rfl⟩

/-- Settles O7: the reset edge, or the instruction of the cycle's host word (`exec_decodeHost_next`). -/
theorem hostCycleHasNext : Obligations.HostCycleHasNext := by
  intro s hhost
  unfold NoOtherMaster at hhost
  cases hr : s.nextCycle.pins.rst with
  | true => exact ⟨_, if_pos hr⟩
  | false =>
    cases hw : s.nextCycle.word with
    | host w =>
      rw [step_of_decode_ok hr (congrArg decode hw)]
      exact exec_decodeHost_next w s.sampled
    | devCmd w | devCmdData w | treq w =>
      rw [hw] at hhost
      cases hhost

/-! Reads (R120) -/

theorem exec_rd (n : BitVec 5) (g : Word) (s : State) :
    exec (.rd n g) s = .next (latchRead n s (sequencer s.pins s)) := rfl

theorem readReg_reserved {n : BitVec 5} (h : 22 ≤ n.toNat) (s : State) : s.readReg n = 0 := by
  unfold State.readReg
  split
  case h_23 => rfl
  all_goals omega

/-- Settles O15: what the port shows is `State.readReg`, register by register. -/
theorem readRegister : Obligations.ReadRegister := by
  intro s n g
  refine ⟨s.readReg n, exec_rd n g s, ?_⟩
  iterate 22 refine ⟨by rintro rfl; rfl, ?_⟩
  exact fun h => readReg_reserved h s

/-- Settles O16: while idle the sequencer does nothing. -/
theorem readIdle : Obligations.ReadIdle := by
  intro s n g hs
  rw [exec_rd, sequencer_idle _ _ hs]
  rfl

/-! Writes of a register (R122 to R124) -/

theorem writeStatus_eq (d : Word) (s : State) :
    s.writeStatus d = { s with hosterr := if d.getLsbD 9 then false else s.hosterr } := by
  unfold State.writeStatus
  cases d.getLsbD 9 <;> simp

/-- Settles O17: HOSTERR is all the edge of the read differs in, and the sequencer leaves it. -/
theorem writeStatus : Obligations.WriteStatus := by
  intro s d
  refine ⟨_, exec_rd 1 0 s, ?_⟩
  rw [exec_wr_status, writeStatus_eq, sequencer_hosterr]
  rfl

/-- The read-only and the reserved numbers (R123). -/
theorem writeReg_not_operand {n : BitVec 5}
    (h : n = 7 ∨ n = 8 ∨ n = 9 ∨ n = 15 ∨ n = 16 ∨ n = 20 ∨ n = 21 ∨ 22 ≤ n.toNat) (d : Word) (s : State) :
    s.writeReg n d = s.hostError := by
  simp only [← BitVec.toNat_inj, BitVec.reduceToNat] at h
  unfold State.writeReg
  split
  case h_14 => rfl
  all_goals omega

/-- Settles O18: `exec_wr_register`, with `State.writeReg` register by register. -/
theorem writeOperandRegister : Obligations.WriteOperandRegister := by
  intro s d hs writes
  have hwrites {n : BitVec 5} {t : State} (h1 : n ≠ 1) (h0 : n ≠ 0) (ht : s.writeReg n d = t) : writes n t :=
    ⟨s.readReg n, ht ▸ exec_wr_register d h1 h0 hs⟩
  iterate 13 refine ⟨hwrites (by decide) (by decide) rfl, ?_⟩
  intro n hn
  refine hwrites ?_ ?_ (writeReg_not_operand hn d s)
  all_goals
    rintro rfl
    simp at hn

/-- Issuing an operation while busy is a lost write (R124). -/
theorem exec_op_busy (op : HostOp) (x : BitVec 28) {s : State} (hb : s.st ≠ .idle) :
    exec (op.instr x) s = .next (latchRead 0 s (sequencer s.pins s).hostError) := by
  rw [exec_instr, writeEdge_busy _ _ _ hb]

/-- Settles O19: `exec_wr_busy` and `exec_op_busy`, whose edge is that of the read with HOSTERR set. -/
theorem writeWhileBusy : Obligations.WriteWhileBusy := by
  intro s x hb
  exact ⟨fun n d hn => ⟨_, exec_rd n 0 s, exec_wr_busy d hn hb⟩, _, exec_rd 0 0 s, fun op => exec_op_busy op x hb⟩

/-! The issue of an operation while idle (R126, R127) -/

/-- The write of an operation's code to CMD accepts it, and WAITRDY clears ELAPSED; a failed configuration check ends
WRCFG and CAPTURE (R126, R165). -/
theorem writeCmdReg_op_cases (op : HostOp) (x : BitVec 28) (s : State) :
    ((op = .wrcfg ∨ op = .capture) ∧ cfgOk s.cfg s.extref = false ∧
        writeCmdReg (x ++ op.code) s = raise .config (acceptClear op s)) ∨
    (((op = .wrcfg ∨ op = .capture) → cfgOk s.cfg s.extref = true) ∧
        writeCmdReg (x ++ op.code) s =
          { accept op s with elapsed := if op = .waitrdy then 0 else s.elapsed }) := by
  have hcases := writeCmdReg_cases (x ++ op.code) s
  rw [(cmdWord_fields x op.code).1, HostOp.ofCode_code] at hcases
  obtain ⟨hnone, -⟩ | ⟨_, ⟨⟩, hop⟩ := hcases
  · cases hnone
  · exact hop

theorem exec_op_idle (op : HostOp) (x : BitVec 28) {s : State} (hs : s.st = .idle) :
    exec (op.instr x) s = .next (latchRead 0 s (writeCmdReg (x ++ op.code) s)) := by
  rw [exec_instr, writeEdge_idle _ _ _ hs]

theorem exec_op_accepted {op : HostOp} (x : BitVec 28) {s : State} (hs : s.st = .idle)
    (hok : op = .wrcfg ∨ op = .capture → cfgOk s.cfg s.extref = true) :
    exec (op.instr x) s = .next (latchRead 0 s
      { accept op s with elapsed := if op = .waitrdy then 0 else s.elapsed }) := by
  rw [exec_op_idle op x hs]
  obtain ⟨hop, hbad, -⟩ | ⟨-, haccept⟩ := writeCmdReg_op_cases op x s
  · exact absurd (hok hop) (by simp [hbad])
  · rw [haccept]

theorem exec_op_refused {op : HostOp} (x : BitVec 28) {s : State} (hs : s.st = .idle)
    (hop : op = .wrcfg ∨ op = .capture) (hbad : cfgOk s.cfg s.extref = false) :
    exec (op.instr x) s = .next { s with
      cmd := op.code, done := true, outcome := .errConfig, errstep := .none, hRdata := s.readReg 0 } := by
  rw [exec_op_idle op x hs]
  obtain ⟨-, -, hraise⟩ | ⟨hok, -⟩ := writeCmdReg_op_cases op x s
  · rw [hraise]
    simp [latchRead, raise, acceptClear, ErrorKind.outcome, ErrorKind.errstep, hs]
  · exact absurd (hok hop) (by simp [hbad])

/-- Settles O21: `exec_op_accepted`, operation by operation; only WRCFG and CAPTURE check the configuration. -/
theorem operationAccepted : Obligations.OperationAccepted := by
  intro s x hs u
  have haccept (op : HostOp) (hop : ¬ (op = .wrcfg ∨ op = .capture)) :=
    exec_op_accepted x hs fun h => absurd h hop
  refine ⟨haccept .select (by decide), haccept .devReset (by decide), haccept .start (by decide),
    haccept .waitrdy (by decide), haccept .rdraw (by decide), haccept .code2v (by decide), haccept .v2in (by decide),
    haccept .dcal (by decide), haccept .v2ph (by decide), haccept .v2phu (by decide), fun hok => ?_⟩
  have hchecked (op : HostOp) := exec_op_accepted (op := op) x hs fun _ => (cfgOk_iff _ _).2 hok
  exact ⟨hchecked .wrcfg, hchecked .capture⟩

/-- Settles O22: `exec_op_refused` for the two operations that check the configuration. -/
theorem configCheckRefuses : Obligations.ConfigCheckRefuses := by
  intro s x hs hext hneg u
  have hbad : cfgOk s.cfg s.extref = false := by
    rw [← Bool.not_eq_true, cfgOk_iff, hext]
    simpa using hneg
  exact ⟨exec_op_refused x hs (.inl rfl) hbad, exec_op_refused x hs (.inr rfl) hbad⟩

end Sys2Proof.Machine
end

section
/-! PROOFS. The block's own SELECT, Reset command, status read and data read, edge by edge (R146, R140, R144, R142; R177,
R178, R180), and the own transaction word as the sequencer's edge (log 3). -/

namespace Sys2Proof.Machine

/-- Settles O35: the word runs as the transaction of the request driven (`exec_of_decode_treq`), which is the sequencer's
edge (`transactEdge_own`). -/
theorem ownTransactionIsTheEdge : Obligations.OwnTransactionIsTheEdge := by
  rintro s _ i r hreq hi rfl
  refine ⟨sequencer s.pins s, ?_, fun n g => exec_rd n g s⟩
  rw [exec_of_decode_treq hi, transactEdge_own hreq]

/-- Settles O28: the acknowledged edge ends the SELECT behind the port, and with it the operation. -/
theorem selectTransaction : Obligations.SelectTransaction := by
  intro s hs
  have hreq : s.request = some ⟨.select, s.addr, 0⟩ := by simp [State.request, hs]
  have hrun : exec (.tSelect s.addr 0) s = .next (edgeTSel s.pins s) :=
    congrArg _ ((transactEdge_own hreq).trans (sequencer_tSel s.pins s hs))
  rw [hrun, edgeTSel, served_of_request hreq, transactionEnd_select]
  refine ⟨fun hack => ?_, fun hack herr => ?_, fun hack herr => ?_⟩
  · rw [hack]; rfl
  · rw [hack, herr]; rfl
  · rw [hack, herr]; rfl

/-- Settles O29: the block by the cases of its edge, the device by the end of the transaction. -/
theorem resetTransaction : Obligations.ResetTransaction := by
  intro s hs
  have hreq : s.request = some ⟨.writeCmd, cmdReset, 0⟩ := by simp [State.request, hs]
  have hown := transactEdge_own hreq
  have hne : cmdReset ≠ cmdStart := by decide
  have hdevices (hack : s.pins.ack = true) := writeCmd_devices (sequencer_behindPort_of_request hreq hack)
  obtain ⟨hwaits, hfailed, hother, hcapture⟩ := goOn_edge_cases hreq (sequencer_tRst s.pins s hs)
  refine ⟨sequencer s.pins s, congrArg _ hown, congrArg _ hown, hwaits, fun hack => ⟨?_, fun herr => ?_,
    fun herr hc => ?_, fun herr hc => ?_⟩⟩
  · simpa [hne] using hdevices hack
  · rw [hfailed hack herr]; rfl
  · rw [hother hack herr hc]; rfl
  · rw [hcapture hack herr hc]; rfl

/-- Settles O34: after an error the device is open, after an answer only RAW and the end of the operation differ. -/
theorem readTransaction : Obligations.ReadTransaction := by
  intro s hs
  have hreq : s.request = some ⟨.readWord, cmdRdata, 0⟩ := by simp [State.request, hs]
  have hrun : transactEdge ⟨.readWord, cmdRdata, 0⟩ s = edgeTRead s.pins s :=
    (transactEdge_own hreq).trans (sequencer_tRead s.pins s hs)
  refine ⟨edgeTRead s.pins s, congrArg _ hrun, congrArg _ hrun, ?_⟩
  rw [edgeTRead, served_of_request hreq, transactionEnd_readWord]
  refine ⟨fun hack => ?_, fun hack herr => ?_, fun hack herr => ?_⟩
  · rw [hack]; rfl
  · rw [hack, herr]
    exact ⟨(forgetDevice_forgotten s).of_eq rfl rfl rfl, rfl⟩
  · rw [hack, herr]; rfl

/-! The status read (R178): what a status byte does to the block, one equation per case -/

theorem cap_iff_cmd {s : State} : s.cap = true ↔ s.cmd = 7 := decide_eq_true_iff

/-- The deadline test (R170). -/
theorem deadlinePassed_iff {e : Word} {w : BitVec 16} : deadlinePassed e w = true ↔ w.toNat * 1000 ≤ e.toNat :=
  decide_eq_true_iff

section
variable {b : Byte} {e : Word} {s : State}

theorem statusRead_ready_capture (hb : b.getLsbD 7 = true) (hc : s.cmd = 7) :
    statusRead b e s = { s with stshadow := b, st := .tRead } :=
  (if_pos hb).trans (goOn_of_capture hc)

theorem statusRead_ready_other (hb : b.getLsbD 7 = true) (hc : s.cmd ≠ 7) :
    statusRead b e s = complete .ok { s with stshadow := b } :=
  (if_pos hb).trans (goOn_of_other hc)

theorem statusRead_not_ready (hb : b.getLsbD 7 = false) : statusRead b e s = notReady e { s with stshadow := b } :=
  if_neg (Bool.eq_false_iff.1 hb)

theorem statusRead_late (hb : b.getLsbD 7 = false) (he : s.maxwait.toNat * 1000 ≤ e.toNat) :
    statusRead b e s = complete .timeout { s with stshadow := b, raw := if s.cmd = 7 then 0xFFFF else s.raw } := by
  rw [statusRead_not_ready hb, notReady, if_pos (deadlinePassed_iff.2 he)]
  simp only [cap_iff_cmd]
  split <;> rfl

theorem statusRead_in_time (hb : b.getLsbD 7 = false) (he : e.toNat < s.maxwait.toNat * 1000) :
    statusRead b e s =
      if s.pollus = 0 then { s with stshadow := b } else { s with stshadow := b, dl := s.pollus, st := .wDelay } :=
  (statusRead_not_ready hb).trans (if_neg fun hlate => absurd (deadlinePassed_iff.1 hlate) (Nat.not_le.2 he))

end

/-- The edge of T_POLL: the tick is counted, a failure leaves the device open, an answer leaves every device as it was
(R144, R178). -/
theorem sequencer_tPoll_cases {p : Pins} {s : State} (hs : s.st = .tPoll) :
    (p.ack = false → sequencer p s = countTick p s) ∧
    (p.ack = true → p.err = true → sequencer p s = raise (.transport .poll) (forgetDevice (countTick p s))) ∧
    (p.ack = true → p.err = false →
      sequencer p s = statusRead (p.rdata.truncate 8) s.elapsed (countTick p s)) := by
  have hreq : (countTick p s).request = some ⟨.readByte, cmdRstatus, 0⟩ := by simp [countTick_eq, State.request, hs]
  simp only [sequencer_tPoll p s hs, edgeTPoll]
  rw [served_of_request hreq, transactionEnd_readByte, readByte_eq]
  refine ⟨fun hack => ?_, fun hack herr => ?_, fun hack herr => ?_⟩
  · rw [hack]; rfl
  · rw [hack, herr]; rfl
  · rw [hack, herr]; rfl

/-- Settles O32: the cases of the edge of T_POLL, and of the status byte that came back. -/
theorem pollTransaction : Obligations.PollTransaction := by
  intro s hs
  have hreq : s.request = some ⟨.readByte, cmdRstatus, 0⟩ := by simp [State.request, hs]
  have hown := transactEdge_own hreq
  have hdevices (hack : s.pins.ack = true) := readByte_devices (sequencer_behindPort_of_request hreq hack)
  obtain ⟨hwaits, hfailed, hanswered⟩ := sequencer_tPoll_cases (p := s.pins) hs
  rw [countTick_eq, tickElapsed_eq] at hwaits hfailed hanswered
  refine ⟨sequencer s.pins s, congrArg _ hown, congrArg _ hown, fun hack => ⟨?_, ?_⟩, fun hack herr => ⟨?_, ?_⟩,
    fun hack herr => ⟨?_, fun hb => ⟨fun hc => ?_, fun hc => ?_⟩, fun hb => ⟨fun hlate => ?_,
      fun htime => ⟨fun hp => ?_, fun hp => ?_⟩⟩⟩⟩
  · exact (sequencer_behindPort_of_no_ack s hack).deviceSame
  · rw [hwaits hack]
  · simpa [herr] using hdevices hack
  · rw [hfailed hack herr]; rfl
  · simpa [herr] using hdevices hack
  · rw [(hanswered hack herr).trans (statusRead_ready_capture hb hc)]
  · rw [(hanswered hack herr).trans (statusRead_ready_other hb hc)]; rfl
  · rw [(hanswered hack herr).trans (statusRead_late hb hlate)]; rfl
  · rw [(hanswered hack herr).trans (statusRead_in_time hb htime), if_pos hp]
  · rw [(hanswered hack herr).trans (statusRead_in_time hb htime), if_neg hp]

end Sys2Proof.Machine
end

section
/-! PROOFS. The order of CAPTURE at the selected device (R167, R259): what it says, the edges of the sequencer by FSM
state, and the step. -/

namespace Sys2Proof.Machine

/-- The selected device holds the configuration byte that CAPTURE sends (R96). -/
def ConfigInPlace (s : State) : Prop := ∀ a, s.selected = some a →
  s.deviceConfig a.toNat = cfgSent s.cfg ∧ s.configOpen a.toNat = false

/-- The selected device has begun a conversion with the configuration byte that CAPTURE sends. -/
def ConversionBegun (s : State) : Prop := ∀ a, s.selected = some a → s.devRun.read a.toNat = some (cfgSent s.cfg)

theorem captureOrder_iff {s : State} : CaptureOrder s ↔ (s.currentOp = some .capture →
    ((s.st = .tStart ∨ s.st = .tPoll ∨ s.st = .wDelay ∨ s.st = .tRead) → ConfigInPlace s) ∧
    ((s.st = .tPoll ∨ s.st = .wDelay ∨ s.st = .tRead) → ConversionBegun s)) :=
  ⟨fun h hop => ⟨fun hst a ha => (h hop a ha).1 hst, fun hst a ha => (h hop a ha).2 hst⟩,
    fun h hop a ha => ⟨fun hst => (h hop).1 hst a ha, fun hst => (h hop).2 hst a ha⟩⟩

/-- While an address is selected it is the target (R146). -/
theorem target_of_selected {s : State} {a : Byte} (h : s.selected = some a) : s.target = a := by
  unfold State.target; rw [h]

section
variable {s t : State} (hport : SameBehindPort s t) (hcfg : t.cfg = s.cfg)
include hport hcfg

theorem SameBehindPort.configInPlace (h : ConfigInPlace s) : ConfigInPlace t := by
  unfold ConfigInPlace State.deviceConfig State.configOpen at *
  rwa [hport.selected, hport.devCfg, hport.devOpen, hcfg]

theorem SameBehindPort.conversionBegun (h : ConversionBegun s) : ConversionBegun t := by
  unfold ConversionBegun at *
  rwa [hport.selected, hport.devRun, hcfg]

/-- The order is kept where nothing behind the port changes and CAPTURE comes no further. -/
theorem SameBehindPort.captureOrder (hcmd : t.cmd = s.cmd)
    (hst : t.st = s.st ∨ s.st = .tPoll ∨ s.st = .wDelay ∨ s.st = .tRead) (h : CaptureOrder s) : CaptureOrder t := by
  have hop : t.currentOp = s.currentOp := by unfold State.currentOp; rw [hcmd]
  rw [captureOrder_iff, hop]
  intro hc
  obtain ⟨hconfig, hbegun⟩ := captureOrder_iff.1 h hc
  exact ⟨fun ht => hport.configInPlace hcfg (hconfig (hst.elim (fun he => he ▸ ht) .inr)),
    fun ht => hport.conversionBegun hcfg (hbegun (hst.elim (fun he => he ▸ ht) id))⟩

end

/-- Before its configuration write has ended, and once it is over, CAPTURE has no order to keep. -/
theorem captureOrder_of_early {t : State} (h : t.st = .idle ∨ t.st = .tRst ∨ t.st = .tCfg) : CaptureOrder t := by
  intro _ a _
  rcases h with h | h | h <;> simp [h]

/-! The two transactions that put the order in place -/

/-- The configuration write leaves the byte sent at the selected device (R145). -/
theorem configureDevice_configInPlace (s : State) : ConfigInPlace (configureDevice (cfgSent s.cfg) s) := by
  intro a ha
  have htarget : s.target = a := target_of_selected ha
  exact (configureDevice_configured (cfgSent s.cfg) s a.toNat).1 (by rw [htarget])

/-- The Start command begins a conversion with the configuration in place (R77, R141). -/
theorem ConfigInPlace.startDevice {s : State} (h : ConfigInPlace s) :
    ConfigInPlace (startDevice s) ∧ ConversionBegun (startDevice s) := by
  refine ⟨h, fun a ha => ?_⟩
  have htarget : s.target = a := target_of_selected ha
  obtain ⟨-, hrun⟩ := startDevice_started s a.toNat
  rw [hrun, if_pos (by rw [htarget]), (h a ha).1]
  rfl

/-! The sequencer's edges -/

/-- The edge of a transaction state from which CAPTURE goes on: only going on is at stake (R177). -/
theorem goOn_edge_captureOrder {p : Pins} {s t : State} {k : ErrStep} {next : State → State} {r : TReq}
    (h : CaptureOrder s) (hreq : s.request = some r)
    (ht : t =
      if p.ack then
        if p.err then raise (.transport k) (served p s) else goOn next (served p s)
      else s)
    (hnext : s.currentOp = some .capture → CaptureOrder (next (transactionEnd r false p.rdata s))) :
    CaptureOrder t := by
  obtain ⟨hwaits, hfailed, hother, hcapture⟩ := goOn_edge_cases hreq ht
  cases hack : p.ack with
  | false => rwa [hwaits hack]
  | true =>
    cases herr : p.err with
    | true => rw [hfailed hack herr]; exact captureOrder_of_early (.inl rfl)
    | false =>
      by_cases hc : s.cmd = 7
      · rw [hcapture hack herr hc]; exact hnext (currentOp_eq_some.2 hc)
      · rw [hother hack herr hc]; exact captureOrder_of_early (.inl rfl)

theorem edgeTCfg_captureOrder {p : Pins} {s : State} (h : CaptureOrder s) (hs : s.st = .tCfg) :
    CaptureOrder (edgeTCfg p s) := by
  refine goOn_edge_captureOrder (r := ⟨.writeCmdData, cmdWconfig, cfgSent s.cfg⟩) h (by simp [State.request, hs]) rfl
    fun _ => captureOrder_iff.2 fun _ => ⟨fun _ => ?_, by simp⟩
  exact configureDevice_configInPlace s

theorem edgeTStart_captureOrder {p : Pins} {s : State} (h : CaptureOrder s) (hs : s.st = .tStart) :
    CaptureOrder (edgeTStart p s) := by
  refine goOn_edge_captureOrder (r := ⟨.writeCmd, cmdStart, 0⟩) h (by simp [State.request, hs]) rfl fun hc => ?_
  obtain ⟨hconfig, -⟩ := captureOrder_iff.1 h hc
  obtain ⟨hplace, hbegun⟩ := (hconfig (.inl hs)).startDevice
  exact captureOrder_iff.2 fun _ => ⟨fun _ => hplace, fun _ => hbegun⟩

/-- Polling changes nothing behind the port, unless the read fails and the operation ends. -/
theorem tPoll_captureOrder {p : Pins} {s : State} (h : CaptureOrder s) (hs : s.st = .tPoll) :
    CaptureOrder (sequencer p s) := by
  obtain ⟨hwaits, hfailed, hanswered⟩ := sequencer_tPoll_cases (p := p) hs
  have hkept (hport : SameBehindPort s (sequencer p s)) : CaptureOrder (sequencer p s) :=
    hport.captureOrder (by simp) (by simp) (.inr (.inl hs)) h
  have htick := countTick_behindPort p s
  cases hack : p.ack with
  | false => exact hkept (hwaits hack ▸ htick)
  | true =>
    cases herr : p.err with
    | true => rw [hfailed hack herr]; exact captureOrder_of_early (.inl rfl)
    | false => exact hkept (hanswered hack herr ▸ htick.trans (statusRead_behindPort _ _ _))

theorem edgeTSel_captureOrder {p : Pins} {s : State} (h : CaptureOrder s) : CaptureOrder (edgeTSel p s) := by
  unfold edgeTSel
  split
  · split <;> exact captureOrder_of_early (.inl rfl)
  · exact h

theorem edgeTRead_captureOrder {p : Pins} {s : State} (h : CaptureOrder s) : CaptureOrder (edgeTRead p s) := by
  unfold edgeTRead
  split
  · split <;> exact captureOrder_of_early (.inl rfl)
  · exact h

/-- SC_EXEC computes nothing for CAPTURE. -/
theorem scExec_captureOrder {s : State} (h : CaptureOrder s) : CaptureOrder (scExec s) := by
  intro hop
  have hop' : s.currentOp = some .capture := by rwa [State.currentOp, scExec_cmd] at hop
  have hrun : scExec s = s := scExec_of_currentOp hop'
  rw [hrun]
  exact h hop'

theorem sequencer_captureOrder (p : Pins) {s : State} (h : CaptureOrder s) : CaptureOrder (sequencer p s) := by
  cases hs : s.st
  case idle => rwa [sequencer_idle p s hs]
  case tSel => rw [sequencer_tSel p s hs]; exact edgeTSel_captureOrder h
  case tRst =>
    exact goOn_edge_captureOrder (r := ⟨.writeCmd, cmdReset, 0⟩) h (by simp [State.request, hs])
      (sequencer_tRst p s hs) fun _ => captureOrder_of_early (.inr (.inr rfl))
  case tCfg => rw [sequencer_tCfg p s hs]; exact edgeTCfg_captureOrder h hs
  case tStart => rw [sequencer_tStart p s hs]; exact edgeTStart_captureOrder h hs
  case tPoll => exact tPoll_captureOrder h hs
  case wDelay =>
    have hport : SameBehindPort s (sequencer p s) := sequencer_wDelay p s hs ▸ edgeWDelay_behindPort p s
    exact hport.captureOrder (by simp) (by simp) (.inr (.inr (.inl hs))) h
  case tRead => rw [sequencer_tRead p s hs]; exact edgeTRead_captureOrder h
  case scExec => rw [sequencer_scExec p s hs]; exact scExec_captureOrder h

/-! The step -/

/-- A CMD write while idle ends the block in IDLE or starts an operation, CAPTURE with its Reset command (R127). -/
theorem writeCmdReg_captureOrder (d : Word) {s : State} (hs : s.st = .idle) : CaptureOrder (writeCmdReg d s) := by
  obtain ⟨-, he⟩ | ⟨op, -, ⟨-, -, he⟩ | ⟨-, he⟩⟩ := writeCmdReg_cases d s <;> rw [he]
  · exact captureOrder_of_early (.inl hs)
  · exact captureOrder_of_early (.inl rfl)
  · intro hop
    obtain rfl : op = .capture := by simpa [State.currentOp] using hop
    exact captureOrder_of_early (.inr (.inl rfl)) hop

/-- An instruction of the host port keeps the order. -/
theorem exec_captureOrder {i : Instr} {s t : State} (hi : (encode i).isHost = true) (h : CaptureOrder s)
    (ht : exec i s = .next t) : CaptureOrder t := by
  have hrun {u : State} (hport : SameBehindPort (sequencer s.pins s) u) (hcfg : u.cfg = (sequencer s.pins s).cfg)
      (hcmd : u.cmd = (sequencer s.pins s).cmd) (hst : u.st = (sequencer s.pins s).st) : CaptureOrder u :=
    hport.captureOrder hcfg hcmd (.inl hst) (sequencer_captureOrder s.pins h)
  cases exec_cases i s t ht with
  | read n g hi ht => rw [ht]; exact hrun ⟨rfl, rfl, rfl, rfl⟩ rfl rfl rfl
  | status d hi ht => rw [ht]; exact hrun ⟨rfl, rfl, rfl, rfl⟩ rfl rfl rfl
  | lost n hb hn hi ht => rw [ht]; exact hrun ⟨rfl, rfl, rfl, rfl⟩ rfl rfl rfl
  | command d hb hi ht =>
    have hcmd : SameBehindPort (writeCmdReg d s) t := ht ▸ ⟨rfl, rfl, rfl, rfl⟩
    exact hcmd.captureOrder (ht ▸ rfl) (ht ▸ rfl) (.inl (ht ▸ rfl)) (writeCmdReg_captureOrder d hb)
  | register n d hb h0 h1 hi ht => rw [ht]; exact captureOrder_of_early (.inl (by simpa using hb))
  | own r hr hno ht => simp [hi] at hno
  | other r hr hno ht => simp [hi] at hno

/-- Settles O13: after a reset edge no operation is in flight; any other edge runs an instruction of the host port, as no
other master is on the transport port. -/
theorem stepKeepsCaptureOrder : Obligations.StepKeepsCaptureOrder := by
  intro s t hhost h ht
  obtain ⟨-, rfl⟩ | ⟨-, i, hdecode, hi⟩ := step_cases s t ht
  · exact captureOrder_of_early (.inl rfl)
  · obtain ⟨-, hword⟩ := encodeDecode _ _ hdecode
    have hsampled : CaptureOrder s.sampled :=
      SameBehindPort.captureOrder (s := s) ⟨rfl, rfl, rfl, rfl⟩ rfl rfl (.inl rfl) h
    exact exec_captureOrder (hword ▸ hhost) hsampled hi

end Sys2Proof.Machine
end

section
/-! PROOFS. The arrows of the FSM graph (R181). -/

namespace Sys2Proof.Machine

/-- An operation of unit SC ends in SC_EXEC, with its result or with an error (R200). -/
theorem scResult_st {op : HostOp} (hin : mayBeIn op .scExec = true) (s : State) : (scResult op s).st = .idle := by
  cases op
  case code2v => obtain ⟨v, he⟩ | he := completeCode2v_cases s <;> rw [scResult, he] <;> rfl
  case v2in => obtain ⟨v, he⟩ | ⟨e, -, he⟩ := completeV2in_cases s <;> rw [scResult, he] <;> rfl
  case dcal => obtain ⟨a, b, he⟩ | ⟨e, -, he⟩ := completeDcal_cases s <;> rw [scResult, he] <;> rfl
  case v2ph => obtain ⟨v, he⟩ | ⟨e, -, he⟩ := completeV2ph_cases s <;> rw [scResult, he] <;> rfl
  case v2phu => obtain ⟨v, he⟩ | ⟨e, -, he⟩ := completeV2phu_cases s <;> rw [scResult, he] <;> rfl
  all_goals cases hin

theorem Consistent.scExec_st {s : State} (h : Consistent s) (hs : s.st = .scExec) : (scExec s).st = .idle := by
  obtain ⟨op, hop, hin⟩ := h.op_of_busy (by simp [hs])
  rw [scExec_of_currentOp hop]
  exact scResult_st (hs ▸ hin) s

theorem goOn_st (next : State → State) (s : State) :
    (goOn next s).st = (next s).st ∨ (goOn next s).st = .idle := by
  unfold goOn
  split
  · exact .inl rfl
  · exact .inr rfl

/-- The edge of a transaction state from which CAPTURE goes on: stay, go on, or end (R177). -/
theorem goOn_edge_st {p : Pins} {k : ErrStep} {next : State → State} {s t : State}
    (ht : t =
      if p.ack then
        if p.err then raise (.transport k) (served p s) else goOn next (served p s)
      else s) :
    t.st = s.st ∨ t.st = (next (served p s)).st ∨ t.st = .idle := by
  rw [ht]
  split
  · split
    · exact .inr (.inr rfl)
    · exact .inr (goOn_st next _)
  · exact .inl rfl

theorem statusRead_st (b : Byte) (e : Word) (s : State) :
    (statusRead b e s).st = s.st ∨ (statusRead b e s).st = .tRead ∨ (statusRead b e s).st = .wDelay ∨
    (statusRead b e s).st = .idle := by
  simp only [statusRead, notReady]
  split
  · exact (goOn_st _ _).elim (.inr ∘ .inl) (.inr ∘ .inr ∘ .inr)
  · split
    · exact .inr (.inr (.inr rfl))
    · split
      · exact .inl rfl
      · exact .inr (.inr (.inl rfl))

/-- Without a host write the block follows an arrow of the graph. -/
theorem Consistent.sequencer_follows (p : Pins) {s : State} (h : Consistent s) :
    follows s.st (sequencer p s).st = true := by
  cases hs : s.st
  case idle => rw [sequencer_idle p s hs, hs]; rfl
  case tSel =>
    rw [sequencer_tSel p s hs, edgeTSel]
    (repeat' split) <;> simp [follows, hs]
  case tRst => obtain ht | ht | ht := goOn_edge_st (sequencer_tRst p s hs) <;> simp [ht, hs, follows]
  case tCfg => obtain ht | ht | ht := goOn_edge_st (sequencer_tCfg p s hs) <;> simp [ht, hs, follows]
  case tStart => obtain ht | ht | ht := goOn_edge_st (sequencer_tStart p s hs) <;> simp [ht, hs, follows]
  case tPoll =>
    rw [sequencer_tPoll p s hs, edgeTPoll, countTick_eq]
    split
    · split
      · rfl
      · obtain ht | ht | ht | ht := statusRead_st (p.rdata.extractLsb' 0 8) s.elapsed _ <;>
          rw [ht] <;> simp [follows, hs]
    · simp [follows, hs]
  case wDelay =>
    rw [sequencer_wDelay p s hs, edgeWDelay, countTick_eq]
    (repeat' split) <;> simp [follows, hs]
  case tRead =>
    rw [sequencer_tRead p s hs, edgeTRead]
    (repeat' split) <;> simp [follows, hs]
  case scExec => rw [sequencer_scExec p s hs, h.scExec_st hs]; rfl

/-- A CMD write while idle goes to the first state of an operation (R127) or stays idle. -/
theorem follows_writeCmdReg (d : Word) {s : State} (hs : s.st = .idle) :
    follows .idle (writeCmdReg d s).st = true := by
  obtain ⟨-, he⟩ | ⟨op, -, ⟨-, -, he⟩ | ⟨-, he⟩⟩ := writeCmdReg_cases d s <;> rw [he]
  · rw [hostError_st, hs]; rfl
  · rfl
  · cases op <;> rfl

/-- Settles O14: a sequencer's edge, a CMD write or another register write, each along an arrow. -/
theorem stepFollowsGraph : Obligations.StepFollowsGraph := by
  intro s t h hr ht
  obtain ⟨hrst, -⟩ | ⟨-, i, -, hi⟩ := step_cases s t ht
  · simp [hr] at hrst
  have hsampled : Consistent s.sampled := h.of_eq
  cases exec_blockCase hi with
  | edge p e r sel c o u hp ht => rw [ht]; exact hsampled.sequencer_follows p
  | command d hb ht =>
    have hs : s.st = .idle := hb
    rw [ht, hs]
    exact follows_writeCmdReg d hb
  | register n d hb hi ht =>
    have hs : s.st = .idle := hb
    rw [ht, latchRead_st, writeReg_st, hb, hs]
    rfl

end Sys2Proof.Machine
end

section
/-! PROOFS. The inter-poll delay, edge by edge and over a run of edges (R173, R179). -/

namespace Sys2Proof.Machine

/-- The edge of W_DELAY: a tick is counted off `dl`, and the last one ends the delay (R179). -/
theorem sequencer_wDelay_cases {p : Pins} {s : State} (hs : s.st = .wDelay) :
    (p.tick = false → sequencer p s = s) ∧
    (p.tick = true → s.dl.toNat ≤ 1 →
      sequencer p s = { s with elapsed := tickElapsed s.elapsed, dl := 0, st := .tPoll }) ∧
    (p.tick = true → 1 < s.dl.toNat →
      sequencer p s = { s with elapsed := tickElapsed s.elapsed, dl := s.dl - 1 }) := by
  rw [sequencer_wDelay p s hs, edgeWDelay, countTick_eq]
  refine ⟨fun htick => ?_, fun htick hdl => ?_, fun htick hdl => ?_⟩ <;> rw [htick]
  · rfl
  · exact if_pos hdl
  · exact if_neg (Nat.not_le.2 hdl)

/-- Settles O33: the edge of a read is the sequencer's, with the record of `h_rdata`. -/
theorem delayEdge : Obligations.DelayEdge := by
  intro s n g hs
  obtain ⟨hidle, hlast, hcount⟩ := sequencer_wDelay_cases (p := s.pins) hs
  rw [tickElapsed_eq] at hlast hcount
  refine ⟨s.readReg n, fun htick => ?_, fun htick hdl => ?_, fun htick hdl => ?_⟩ <;> rw [exec_rd]
  · rw [hidle htick]; rfl
  · rw [hlast htick hdl]; rfl
  · rw [hcount htick hdl]; rfl

/-! Edges without a host write -/

/-- One edge of `idleEdges`: the sequencer's under the pins given, beside a read of register 0. -/
def idleEdge (p : Pins) (s : State) : State := latchRead 0 { s with pins := p } (sequencer p { s with pins := p })

theorem idleEdges_nil (s : State) : idleEdges [] s = .next s := rfl

theorem idleEdges_cons (p : Pins) (ps : List Pins) (s : State) : idleEdges (p :: ps) s = idleEdges ps (idleEdge p s) :=
  rfl

/-- A run of such edges always has a next state. -/
theorem idleEdges_eq_foldl (ps : List Pins) (s : State) :
    idleEdges ps s = .next (ps.foldl (fun t p => idleEdge p t) s) := by
  induction ps generalizing s with
  | nil => rfl
  | cons p ps ih => rw [idleEdges_cons, ih]; rfl

/-! The delay over a run of edges -/

/-- The number of ticks in a run of edges. -/
def tickCount (ps : List Pins) : Nat := (ps.filter fun p => p.tick).length

theorem tickCount_cons (p : Pins) (ps : List Pins) : tickCount (p :: ps) = (if p.tick then 1 else 0) + tickCount ps := by
  unfold tickCount
  cases hp : p.tick <;> simp [hp, Nat.add_comm]

/-- An edge in W_DELAY that does not end the delay counts its tick in `dl` and in ELAPSED. -/
theorem idleEdge_wDelay_stays {p : Pins} {s : State} (hs : s.st = .wDelay)
    (hdl : (if p.tick then 1 else 0) < s.dl.toNat) :
    (idleEdge p s).st = .wDelay ∧ (idleEdge p s).dl.toNat = s.dl.toNat - (if p.tick then 1 else 0) ∧
    (idleEdge p s).elapsed.toNat = min (s.elapsed.toNat + if p.tick then 1 else 0) 0xFFFFFFFF := by
  obtain ⟨hidle, -, hcount⟩ := sequencer_wDelay_cases (p := p) (s := { s with pins := p }) hs
  unfold idleEdge
  cases htick : p.tick with
  | false =>
    have hlt := s.elapsed.isLt
    rw [hidle htick]
    refine ⟨hs, rfl, ?_⟩
    simp
    omega
  | true =>
    have h1 : 1 < s.dl.toNat := by simpa [htick] using hdl
    rw [hcount htick h1]
    exact ⟨hs, BitVec.toNat_sub_of_le (BitVec.le_def.2 h1.le), tickElapsed_toNat s.elapsed⟩

/-- The tick that finds `dl` at 1 ends the delay. -/
theorem idleEdge_wDelay_ends {p : Pins} {s : State} (hs : s.st = .wDelay) (htick : p.tick = true)
    (hdl : s.dl.toNat = 1) :
    (idleEdge p s).st = .tPoll ∧ (idleEdge p s).dl = 0 ∧
    (idleEdge p s).elapsed.toNat = min (s.elapsed.toNat + 1) 0xFFFFFFFF := by
  obtain ⟨-, hlast, -⟩ := sequencer_wDelay_cases (p := p) (s := { s with pins := p }) hs
  unfold idleEdge
  rw [hlast htick hdl.le]
  exact ⟨rfl, rfl, tickElapsed_toNat s.elapsed⟩

/-- A run with fewer ticks than `dl` stays in W_DELAY and counts them all. -/
theorem delay_run (ps : List Pins) {s : State} (hs : s.st = .wDelay) (hk : tickCount ps < s.dl.toNat) :
    ∃ t, idleEdges ps s = .next t ∧ t.st = .wDelay ∧ t.dl.toNat = s.dl.toNat - tickCount ps ∧
      t.elapsed.toNat = min (s.elapsed.toNat + tickCount ps) 0xFFFFFFFF := by
  induction ps generalizing s with
  | nil =>
    have hlt := s.elapsed.isLt
    exact ⟨s, rfl, hs, rfl, by simp [tickCount]; omega⟩
  | cons p ps ih =>
    rw [tickCount_cons] at hk ⊢
    obtain ⟨hst, hdl, hel⟩ := idleEdge_wDelay_stays (p := p) hs (by omega)
    obtain ⟨t, hrun, htst, htdl, htel⟩ := ih hst (by omega)
    exact ⟨t, hrun, htst, by omega, by omega⟩

/-- Settles O57: `delay_run` up to the last tick, `idleEdge_wDelay_ends` at it. -/
theorem delayCountsTicks : Obligations.DelayCountsTicks := by
  intro s ps hs _ k
  refine ⟨delay_run ps hs, fun hk p htick => ?_⟩
  have hcount : tickCount ps + 1 = s.dl.toNat := hk
  obtain ⟨u, hrun, hust, hudl, huel⟩ := delay_run ps hs (by omega)
  obtain ⟨hst, hdl, hel⟩ := idleEdge_wDelay_ends (p := p) hust htick (by omega)
  refine ⟨idleEdge p u, ?_, hst, hdl, by omega⟩
  rw [idleEdges_eq_foldl] at hrun ⊢
  rw [List.foldl_append, Host.Outcome.next.inj hrun]
  rfl

end Sys2Proof.Machine
end

section
/-! PROOFS. A transport error ends the operation in flight (R175, R221, R233). -/

namespace Sys2Proof.Machine

/-- A failed transaction raises the step of its state; the block keeps everything else but the tick of a polling edge
(R175). -/
theorem sequencer_transport_error {p : Pins} {s : State} (hreq : s.tReqOut = true) (hack : p.ack = true)
    (herr : p.err = true) : ∃ sel c o u, sequencer p s = raise (.transport (failingStep s.st)) { s with
      elapsed := if s.st = .tPoll ∧ p.tick = true then tickElapsed s.elapsed else s.elapsed,
      selected := sel, devCfg := c, devOpen := o, devRun := u } := by
  cases hs : s.st
  case idle | wDelay | scExec => simp [State.tReqOut, State.request, hs] at hreq
  case tPoll =>
    obtain ⟨-, hfailed, -⟩ := sequencer_tPoll_cases (p := p) hs
    rw [hfailed hack herr, countTick_eq]
    simp only [true_and]
    exact ⟨_, _, _, _, rfl⟩
  all_goals
    obtain ⟨sel, c, o, u, h⟩ := served_frame p s
    refine ⟨sel, c, o, u, ?_⟩
    simp [sequencer, hs, edgeTSel, edgeTRst, edgeTCfg, edgeTStart, edgeTRead, hack, herr, h, failingStep]

/-- Settles O36: the failed edge by `sequencer_transport_error`, the step of R104 state by state. -/
theorem transportErrorEnds : Obligations.TransportErrorEnds := by
  intro s n g hreq hack herr
  obtain ⟨sel, c, o, u, h⟩ := sequencer_transport_error hreq hack herr
  rw [tickElapsed_eq] at h
  refine ⟨_, exec_rd n g s, ?_⟩
  rw [h]
  refine ⟨rfl, rfl, rfl, rfl, ?_, rfl, rfl, rfl, rfl⟩
  show failingStep s.st = _
  cases hs : s.st
  case idle | wDelay | scExec => simp [State.tReqOut, State.request, hs] at hreq
  all_goals rfl

end Sys2Proof.Machine
end

section
/-! PROOFS. Whole operations of unit CP with the shortest answers: the stand-alone operations (R160 to R166) and CAPTURE
(R167). -/

namespace Sys2Proof.Machine

/-! Each transaction state at an edge acknowledged without error (R177, R178, R180) -/

section
variable {p : Pins} {s : State}

theorem sequencer_tSel_acked (hs : s.st = .tSel) (hack : p.ack = true) (herr : p.err = false) :
    sequencer p s = complete .ok { s with selected := some s.addr } := by
  have hreq : s.request = some ⟨.select, s.addr, 0⟩ := by simp [State.request, hs]
  rw [sequencer_tSel p s hs, edgeTSel, served_of_request hreq, transactionEnd_select, hack, herr]
  rfl

theorem sequencer_tRst_acked (hs : s.st = .tRst) (hack : p.ack = true) (herr : p.err = false) :
    sequencer p s = goOn (fun s => { s with st := .tCfg }) (forgetDevice s) := by
  have hreq : s.request = some ⟨.writeCmd, cmdReset, 0⟩ := by simp [State.request, hs]
  rw [sequencer_tRst p s hs, edgeTRst, served_of_request hreq, hack, herr]
  rfl

theorem sequencer_tCfg_acked (hs : s.st = .tCfg) (hack : p.ack = true) (herr : p.err = false) :
    sequencer p s = goOn (fun s => { s with st := .tStart }) (configureDevice (cfgSent s.cfg) s) := by
  have hreq : s.request = some ⟨.writeCmdData, cmdWconfig, cfgSent s.cfg⟩ := by simp [State.request, hs]
  rw [sequencer_tCfg p s hs, edgeTCfg, served_of_request hreq, hack, herr]
  rfl

theorem sequencer_tStart_acked (hs : s.st = .tStart) (hack : p.ack = true) (herr : p.err = false) :
    sequencer p s = goOn (fun s => { s with elapsed := 0, st := .tPoll }) (startDevice s) := by
  have hreq : s.request = some ⟨.writeCmd, cmdStart, 0⟩ := by simp [State.request, hs]
  rw [sequencer_tStart p s hs, edgeTStart, served_of_request hreq, hack, herr]
  rfl

theorem sequencer_tPoll_ready (hs : s.st = .tPoll) (hack : p.ack = true) (herr : p.err = false)
    (hready : p.rdata.getLsbD 7 = true) :
    sequencer p s = goOn (fun s => { s with st := .tRead }) { s with
      elapsed := if p.tick then tickElapsed s.elapsed else s.elapsed, stshadow := p.rdata.truncate 8 } := by
  obtain ⟨-, -, hanswered⟩ := sequencer_tPoll_cases (p := p) hs
  have hb : statusReady (p.rdata.truncate 8) = true := by simpa [statusReady] using hready
  rw [hanswered hack herr, countTick_eq, statusRead, if_pos hb]

theorem sequencer_tRead_acked (hs : s.st = .tRead) (hack : p.ack = true) (herr : p.err = false) :
    sequencer p s = complete .ok { s with raw := bswap16 p.rdata } := by
  have hreq : s.request = some ⟨.readWord, cmdRdata, 0⟩ := by simp [State.request, hs]
  rw [sequencer_tRead p s hs, edgeTRead, served_of_request hreq, hack, herr]
  rfl

end

/-! The stand-alone operations: the accepting edge and one more -/

/-- The state after the edge that accepts an operation (R126, R127). -/
def issued (op : HostOp) (s : State) : State :=
  latchRead 0 s { accept op s with elapsed := if op = .waitrdy then 0 else s.elapsed }

theorem issued_busy (op : HostOp) (s : State) : (issued op s).st ≠ .idle := by
  cases op <;> exact nofun

/-- After an error-free transaction every operation but CAPTURE ends (R177). -/
theorem goOn_of_standAlone {op : HostOp} {next : State → State} {s : State} (hop : op ≠ .capture)
    (hc : s.cmd = op.code) : goOn next s = complete .ok s := by
  refine goOn_of_other (hc ▸ ?_)
  cases op
  case capture => exact absurd rfl hop
  all_goals decide

/-- An operation is issued while idle and one more edge follows. -/
theorem issue_then_edge {op : HostOp} (x : BitVec 28) (p : Pins) {s : State} (hs : s.st = .idle)
    (hok : op = .wrcfg ∨ op = .capture → cfgOk s.cfg s.extref = true) :
    ∃ s1, exec (op.instr x) s = .next s1 ∧ s1.st ≠ .idle ∧
      idleEdges [p] s1 = .next (idleEdge p (issued op s)) :=
  ⟨issued op s, exec_op_accepted x hs hok, issued_busy op s, rfl⟩

/-- Settles O55: each operation's transaction, acknowledged at the edge after its acceptance. -/
theorem standAloneOpsComplete : Obligations.StandAloneOpsComplete := by
  intro s x p hs hack herr u issuedThen
  have hrun (op : HostOp) (hop : ¬ (op = .wrcfg ∨ op = .capture)) :=
    issue_then_edge (op := op) x p hs fun h => absurd h hop
  have hidle : u = { u with st := .idle } := hs ▸ rfl
  refine ⟨⟨_, hrun .select (by decide), ?_⟩, ⟨_, hrun .devReset (by decide), ?_⟩,
    fun hok => ⟨_, issue_then_edge (op := .wrcfg) x p hs fun _ => hok, ?_⟩, ⟨_, hrun .start (by decide), ?_⟩,
    fun hready => ⟨_, hrun .waitrdy (by decide), ?_⟩, ⟨_, hrun .rdraw (by decide), ?_⟩⟩
  · rw [idleEdge, sequencer_tSel_acked (by rfl) hack herr]
    rw [hidle]; rfl
  · rw [idleEdge, sequencer_tRst_acked (by rfl) hack herr, goOn_of_standAlone (op := .devReset) nofun (by rfl)]
    exact ⟨forgetDevice_forgotten s, by rw [hidle]; rfl⟩
  · rw [idleEdge, sequencer_tCfg_acked (by rfl) hack herr, goOn_of_standAlone (op := .wrcfg) nofun (by rfl)]
    exact ⟨configureDevice_configured _ s, by rw [hidle]; rfl⟩
  · rw [idleEdge, sequencer_tStart_acked (by rfl) hack herr, goOn_of_standAlone (op := .start) nofun (by rfl)]
    exact ⟨startDevice_started s, by rw [hidle]; rfl⟩
  · rw [idleEdge, sequencer_tPoll_ready (by rfl) hack herr hready, goOn_of_standAlone (op := .waitrdy) nofun (by rfl)]
    rw [hidle]; rfl
  · rw [idleEdge, sequencer_tRead_acked (by rfl) hack herr]
    rw [hidle]; rfl

/-! CAPTURE: five transactions acknowledged one edge after the other -/

theorem ConfigSame.trans {s t u : State} {b : Nat} (h : ConfigSame s t b) (h' : ConfigSame t u b) : ConfigSame s u b :=
  ⟨h'.1.trans h.1, h'.2.trans h.2⟩

/-- The Reset command, the configuration write and the Start command at one target: it holds the byte written and has
begun its conversion with it; every other device is as it was. -/
theorem reset_configure_start {v a : Byte} {s s1 s2 s3 : State} (hreset : DeviceForgotten s s1)
    (hconfig : DeviceConfigured v s1 s2) (hstart : DeviceStarted s2 s3) (ha : s.target = a) (ha1 : s1.target = a)
    (ha2 : s2.target = a) :
    s3.deviceConfig a.toNat = v ∧ s3.configOpen a.toNat = false ∧ s3.devRun.read a.toNat = some v ∧
    ∀ b : Nat, b ≠ a.toNat → ConfigSame s s3 b ∧ s3.devRun.read b = s.devRun.read b := by
  subst ha
  obtain ⟨hv, hopen⟩ := (hconfig s.target.toNat).1 (by rw [ha1])
  obtain ⟨⟨hv3, hopen3⟩, hrun3⟩ := hstart s.target.toNat
  rw [ha2, if_pos rfl] at hrun3
  refine ⟨hv3.trans hv, hopen3.trans hopen, hrun3.trans (congrArg some hv), fun b hb => ?_⟩
  obtain ⟨hsame1, hrun1⟩ := (hreset b).2 hb
  obtain ⟨-, hsame2, hrun2⟩ := hconfig b
  obtain ⟨hsame3, hrun3⟩ := hstart b
  rw [ha2, if_neg hb] at hrun3
  exact ⟨hsame1.trans ((hsame2 (by rwa [ha1])).trans hsame3), hrun3.trans (hrun2.trans hrun1)⟩

section
variable {p : Pins} {s : State} (hc : s.cmd = 7) (hack : p.ack = true) (herr : p.err = false)
include hc hack herr

theorem idleEdge_tRst_capture (hs : s.st = .tRst) :
    idleEdge p s = { forgetDevice s with st := .tCfg, pins := p, hRdata := s.readReg 0 } := by
  rw [idleEdge, sequencer_tRst_acked (by exact hs) hack herr, goOn_of_capture (by exact hc)]
  rfl

theorem idleEdge_tCfg_capture (hs : s.st = .tCfg) :
    idleEdge p s = { configureDevice (cfgSent s.cfg) s with st := .tStart, pins := p, hRdata := s.readReg 0 } := by
  rw [idleEdge, sequencer_tCfg_acked (by exact hs) hack herr, goOn_of_capture (by exact hc)]
  rfl

theorem idleEdge_tStart_capture (hs : s.st = .tStart) :
    idleEdge p s = { startDevice s with elapsed := 0, st := .tPoll, pins := p, hRdata := s.readReg 0 } := by
  rw [idleEdge, sequencer_tStart_acked (by exact hs) hack herr, goOn_of_capture (by exact hc)]
  rfl

theorem idleEdge_tPoll_capture (hs : s.st = .tPoll) (hready : p.rdata.getLsbD 7 = true) :
    idleEdge p s = { s with
      elapsed := if p.tick then tickElapsed s.elapsed else s.elapsed, stshadow := p.rdata.truncate 8, st := .tRead,
      pins := p, hRdata := s.readReg 0 } := by
  rw [idleEdge, sequencer_tPoll_ready (by exact hs) hack herr hready, goOn_of_capture (by exact hc)]
  rfl

end

theorem idleEdge_tRead {p : Pins} {s : State} (hack : p.ack = true) (herr : p.err = false) (hs : s.st = .tRead) :
    idleEdge p s = { s with
      raw := bswap16 p.rdata, outcome := .ok, done := true, st := .idle, pins := p, hRdata := s.readReg 0 } := by
  rw [idleEdge, sequencer_tRead_acked (by exact hs) hack herr]
  rfl

/-- CAPTURE from its first state on, with the shortest answers. -/
theorem capture_run {s : State} {p1 p2 p3 p4 p5 : Pins} (hc : s.cmd = 7) (hs : s.st = .tRst)
    (hacks : ∀ p ∈ [p1, p2, p3, p4, p5], p.ack = true ∧ p.err = false) (hready : p4.rdata.getLsbD 7 = true) :
    ∃ t, idleEdges [p1, p2, p3, p4, p5] s = .next t ∧
      (∀ a, s.selected = some a →
        t.deviceConfig a.toNat = cfgSent s.cfg ∧ t.configOpen a.toNat = false ∧
        t.devRun.read a.toNat = some (cfgSent s.cfg) ∧
        ∀ b : Nat, b ≠ a.toNat → ConfigSame s t b ∧ t.devRun.read b = s.devRun.read b) ∧
      t = { s with
        st := .idle, outcome := .ok, done := true, raw := bswap16 p5.rdata, stshadow := p4.rdata.truncate 8,
        elapsed := if p4.tick then 1 else 0, devCfg := t.devCfg, devOpen := t.devOpen, devRun := t.devRun,
        pins := p5, hRdata := t.hRdata } := by
  simp only [List.forall_mem_cons] at hacks
  obtain ⟨⟨hack1, herr1⟩, ⟨hack2, herr2⟩, ⟨hack3, herr3⟩, ⟨hack4, herr4⟩, ⟨hack5, herr5⟩, -⟩ := hacks
  refine ⟨idleEdge p5 (idleEdge p4 (idleEdge p3 (idleEdge p2 (idleEdge p1 s)))), rfl, ?_⟩
  have h1 := idleEdge_tRst_capture hc hack1 herr1 hs
  generalize idleEdge p1 s = s1 at h1 ⊢
  have hc1 : s1.cmd = 7 := h1 ▸ hc
  have h2 := idleEdge_tCfg_capture hc1 hack2 herr2 (h1 ▸ rfl)
  generalize idleEdge p2 s1 = s2 at h2 ⊢
  have hc2 : s2.cmd = 7 := h2 ▸ hc1
  have h3 := idleEdge_tStart_capture hc2 hack3 herr3 (h2 ▸ rfl)
  generalize idleEdge p3 s2 = s3 at h3 ⊢
  have hc3 : s3.cmd = 7 := h3 ▸ hc2
  have h4 := idleEdge_tPoll_capture hc3 hack4 herr4 (h3 ▸ rfl) hready
  generalize idleEdge p4 s3 = s4 at h4 ⊢
  rw [idleEdge_tRead hack5 herr5 (h4 ▸ rfl)]
  refine ⟨fun a ha => ?_, ?_⟩
  · have ha1 : s1.selected = some a := h1 ▸ ha
    have ha2 : s2.selected = some a := h2 ▸ ha1
    have hcfg : s1.cfg = s.cfg := h1 ▸ rfl
    have hreset : DeviceForgotten s s1 := h1 ▸ forgetDevice_forgotten s
    have hconfig : DeviceConfigured (cfgSent s.cfg) s1 s2 := hcfg ▸ h2 ▸ configureDevice_configured _ s1
    have hstart : DeviceStarted s2 s3 := h3 ▸ startDevice_started s2
    rw [h4]
    exact reset_configure_start hreset hconfig hstart (target_of_selected ha) (target_of_selected ha1)
      (target_of_selected ha2)
  · rw [h4, h3, h2, h1]
    rfl

/-- Settles O56: the accepting edge, and from there `capture_run`. -/
theorem captureRuns : Obligations.CaptureRuns := by
  intro s x p1 p2 p3 p4 p5 hs hok hacks hready
  obtain ⟨t, hrun, hdevices, ht⟩ := capture_run (s := issued .capture s) rfl rfl hacks hready
  refine ⟨_, t, exec_op_accepted (op := .capture) x hs fun _ => hok, hrun, hdevices, ?_⟩
  have hidle : s = { s with st := .idle } := hs ▸ rfl
  rw [ht, hidle]
  rfl

end Sys2Proof.Machine
end

section
/-! PROOFS. The fixed-point arithmetic of unit SC (R193, R194, R199, R201, R202): rounding toward zero and the bound on
CODE2V. -/

namespace Sys2Proof.Machine

/-! The quotient rounded toward zero (R9) -/

/-- What the quotient leaves is the library's remainder, smaller than the divisor. -/
theorem abs_tdiv_mul_sub_lt (n : Int) {d : Int} (hd : d ≠ 0) : |tdiv n d * d - n| < |d| := by
  have hrest : tdiv n d * d - n = -n.tmod d := by rw [tdiv_eq, Int.tmod_def]; ring
  rw [hrest, abs_neg, Int.abs_eq_natAbs, Int.abs_eq_natAbs, Int.natAbs_tmod]
  exact_mod_cast Nat.mod_lt _ (Int.natAbs_pos.2 hd)

/-- The quotient is never further from zero than the exact one. -/
theorem abs_tdiv_mul_le (n d : Int) : |tdiv n d * d| ≤ |n| := by
  rw [tdiv_eq, Int.abs_eq_natAbs, Int.abs_eq_natAbs, Int.natAbs_mul, Int.natAbs_tdiv]
  exact_mod_cast Nat.div_mul_le_self _ _

/-- The quotient has the sign of the exact one, or is 0. -/
theorem tdiv_mul_nonneg (n d : Int) : 0 ≤ tdiv n d * (n * d) := by
  have hsigns : tdiv n d * (n * d) = (n.sign * n) * (d.sign * d) * ((n.natAbs / d.natAbs : Nat) : Int) := by
    unfold tdiv; ring
  rw [hsigns, Int.sign_mul_self_eq_abs, Int.sign_mul_self_eq_abs]
  positivity

/-- A bound on the dividend, in units of a positive divisor, bounds the quotient. -/
theorem abs_tdiv_le {n d m : Int} (hd : 0 < d) (h : |n| ≤ m * d) : |tdiv n d| ≤ m := by
  have hmul : |tdiv n d| * d ≤ m * d := by
    rw [← abs_of_pos hd, ← abs_mul, abs_of_pos hd]
    exact (abs_tdiv_mul_le n d).trans h
  exact le_of_mul_le_mul_right hmul hd

/-- Two divisions in a row round as the one by the product: the magnitudes are those of natural numbers. -/
theorem tdiv_tdiv (x a b : Int) : tdiv (tdiv x a) b = tdiv x (a * b) := by
  simp only [tdiv_eq]
  obtain ⟨k, rfl | rfl⟩ := x.eq_nat_or_neg <;> obtain ⟨m, rfl | rfl⟩ := a.eq_nat_or_neg <;>
    obtain ⟨n, rfl | rfl⟩ := b.eq_nat_or_neg <;>
    simp only [Int.neg_tdiv, Int.tdiv_neg, Int.neg_mul, Int.mul_neg, neg_neg, ← Int.ofNat_tdiv, ← Int.natCast_mul,
      Nat.div_div_eq_div_mul]

/-- Settles O50: `tdiv_tdiv` for the divisors of R202. -/
theorem twoDivisionsAreOne : Obligations.TwoDivisionsAreOne := fun x g _ => tdiv_tdiv x 32768 g

/-- Settles O49: the product and the quotient are each one `tdiv`, of `a * b` by the scale and of `a * fxScale` by `b`. -/
theorem fxRounding : Obligations.FxRounding := by
  intro a b
  refine ⟨fun hb => ⟨abs_tdiv_mul_sub_lt _ hb, abs_tdiv_mul_le _ _, ?_⟩,
    abs_tdiv_mul_sub_lt (a * b) (d := fxScale) (by decide), abs_tdiv_mul_le _ fxScale, ?_⟩
  · have hscaled : fxDiv a b * (a * fxScale * b) = fxDiv a b * (a * b) * fxScale := by ring
    exact nonneg_of_mul_nonneg_left (hscaled ▸ tdiv_mul_nonneg (a * fxScale) b) (by decide)
  · have hscaled : fxMul a b * (a * b * fxScale) = fxMul a b * (a * b) * fxScale := by ring
    exact nonneg_of_mul_nonneg_left (hscaled ▸ tdiv_mul_nonneg (a * b) fxScale) (by decide)

/-! The points kept exactly -/

theorem tdiv_zero_left (d : Int) : tdiv 0 d = 0 := by rw [tdiv_eq, Int.zero_tdiv]

theorem fxDiv_zero_left (d : Int) : fxDiv 0 d = 0 := by rw [fxDiv, zero_mul, tdiv_zero_left]

/-- Settles O52: at each point the dividend is 0; the last is computed. -/
theorem exactPoints : Obligations.ExactPoints := by
  refine ⟨fun ref g => ?_, fun v7 slope _ => ?_, fun th _ => ?_, by decide⟩
  · rw [codeToVoltage, zero_mul, tdiv_zero_left]
  · rw [vToPh, sub_self, fxDiv_zero_left, add_zero]
  · rw [vToPhUncal, fxDiv_zero_left, add_zero]

/-! CODE2V cannot overflow -/

/-- The reference the configuration check lets through is a positive fx32 number (R165, R201). -/
theorem refVoltage_bounds {c : Byte} {e : Word} (h : cfgOk c e = true) :
    0 < refVoltage c e ∧ refVoltage c e ≤ 2147483647 := by
  unfold refVoltage cfgVref
  split
  · rename_i hv
    have hpos : 0 < e.toInt := ((cfgOk_iff c e).1 h).resolve_left (by simp only [hv]; decide)
    exact ⟨hpos, by have := e.toInt_lt; omega⟩
  · decide

theorem gainDivisor_pos (c : Byte) : 0 < gainDivisor c := by
  unfold gainDivisor
  split <;> decide

/-- A raw sample is at most 32768 away from 0. -/
theorem abs_toInt_le (code : Half) : |code.toInt| ≤ 32768 := by
  rw [abs_le]
  have hle := code.le_toInt
  have hlt := code.toInt_lt
  omega

/-- Settles O48: a sample of at most 32768 times the reference, divided by 32768 and the gain, is at most the reference. -/
theorem code2vFits : Obligations.Code2vFits := by
  intro code c e hok
  obtain ⟨hpos, hle⟩ := refVoltage_bounds hok
  have hnum : |code.toInt * refVoltage c e| ≤ refVoltage c e * (32768 * gainDivisor c) := by
    rw [abs_mul, abs_of_pos hpos]
    calc |code.toInt| * refVoltage c e ≤ 32768 * refVoltage c e := by gcongr; exact abs_toInt_le code
      _ = refVoltage c e * (32768 * 1) := by ring
      _ ≤ refVoltage c e * (32768 * gainDivisor c) := by gcongr; exact gainDivisor_pos c
  have hvolts : |codeToVoltage code.toInt (refVoltage c e) (gainDivisor c)| ≤ refVoltage c e :=
    abs_tdiv_le (mul_pos (by decide) (gainDivisor_pos c)) hnum
  obtain ⟨hlow, hhigh⟩ := abs_le.1 hvolts
  exact (inRange_iff _).2 ⟨by omega, by omega⟩

end Sys2Proof.Machine
end

section
/-! PROOFS. The operations of unit SC from issue to result (R200 to R211): each ending of each operation, and the two
edges an operation takes. -/

namespace Sys2Proof.Machine

/-! The formulas with the one rounding of the library, the range test and the configuration check -/

theorem codeToVoltage_eq (code ref g : Int) : codeToVoltage code ref g = Int.tdiv (code * ref) (32768 * g) :=
  tdiv_eq _ _

theorem vToInput_eq (v g : Int) : vToInput v g = Int.tdiv (v * 16777216) g := tdiv_eq _ _

theorem calSlope_eq (lp lv hp hv : Int) : calSlope lp lv hp hv = Int.tdiv ((hv - lv) * 16777216) (hp - lp) :=
  tdiv_eq _ _

theorem calV7_eq (lp lv slope : Int) : calV7 lp lv slope = Int.tdiv ((117440512 - lp) * slope) 16777216 + lv :=
  congrArg (· + lv) (tdiv_eq _ _)

theorem vToPh_eq (v slope z : Int) : vToPh v slope z = 117440512 + Int.tdiv ((v - z) * 16777216) slope :=
  congrArg (117440512 + ·) (tdiv_eq _ _)

theorem vToPhUncal_eq (v th : Int) : vToPhUncal v th = 117440512 + Int.tdiv (v * 16777216) th :=
  congrArg (117440512 + ·) (tdiv_eq _ _)

theorem not_inRange_of_outside {r : Int} (h : r < -2147483648 ∨ 2147483647 < r) : ¬ inRange r = true := by
  rw [inRange_iff]
  omega

theorem not_cfgOk_of_nonpos {c : Byte} {e : Word} (hext : c.getLsbD 0 = true) (hneg : e.toInt ≤ 0) :
    ¬ cfgOk c e = true := by
  rw [cfgOk_iff, hext]
  simpa using hneg

/-! Each ending of each operation, the tests in the order of R231; `r`, `slope` and `z` are the values of the formulas -/

section
variable {s : State} {r slope z : Int}

theorem completeCode2v_ok (hok : cfgOk s.cfg s.extref = true)
    (hr : codeToVoltage s.raw.toInt (refVoltage s.cfg s.extref) (gainDivisor s.cfg) = r) :
    completeCode2v s = complete .ok { s with volts := fxPattern r } := by
  subst hr
  exact if_pos hok

theorem completeCode2v_config (hbad : ¬ cfgOk s.cfg s.extref = true) : completeCode2v s = raise .config s :=
  if_neg hbad

theorem completeV2in_divZero (hg : s.fegain = 0) : completeV2in s = raise .divZero s := if_pos hg

theorem completeV2in_ok (hg : s.fegain ≠ 0) (hr : vToInput s.volts.toInt s.fegain.toInt = r) (hin : inRange r = true) :
    completeV2in s = complete .ok { s with vinput := fxPattern r } := by
  subst hr
  exact (if_neg hg).trans (if_pos hin)

theorem completeV2in_overflow (hg : s.fegain ≠ 0) (hr : vToInput s.volts.toInt s.fegain.toInt = r)
    (hin : ¬ inRange r = true) : completeV2in s = raise .overflow s := by
  subst hr
  exact (if_neg hg).trans (if_neg hin)

theorem completeDcal_config (h : s.calhiPh = s.calloPh) : completeDcal s = raise .config { s with calv := false } :=
  if_pos h

theorem completeDcal_ok (h : s.calhiPh ≠ s.calloPh)
    (hslope : calSlope s.calloPh.toInt s.calloV.toInt s.calhiPh.toInt s.calhiV.toInt = slope)
    (hz : calV7 s.calloPh.toInt s.calloV.toInt slope = z) (hins : inRange slope = true) (hinz : inRange z = true) :
    completeDcal s = complete .ok { s with slope := fxPattern slope, v7 := fxPattern z, calv := true } := by
  subst hslope hz
  exact (if_neg h).trans ((if_pos hins).trans (if_pos hinz))

theorem completeDcal_overflow (h : s.calhiPh ≠ s.calloPh)
    (hslope : calSlope s.calloPh.toInt s.calloV.toInt s.calhiPh.toInt s.calhiV.toInt = slope)
    (hz : calV7 s.calloPh.toInt s.calloV.toInt slope = z) (hin : ¬ (inRange slope = true ∧ inRange z = true)) :
    completeDcal s = raise .overflow { s with calv := false } := by
  subst hslope hz
  refine (if_neg h).trans ?_
  by_cases hins : inRange (calSlope s.calloPh.toInt s.calloV.toInt s.calhiPh.toInt s.calhiV.toInt) = true
  · exact (if_pos hins).trans (if_neg fun hinz => hin ⟨hins, hinz⟩)
  · exact if_neg hins

theorem completeV2ph_config (hc : s.calv = false) : completeV2ph s = raise .config s := if_pos hc

theorem completeV2ph_divZero (hc : s.calv = true) (h : s.slope = 0) : completeV2ph s = raise .divZero s :=
  (if_neg (by simp [hc])).trans (if_pos h)

theorem completeV2ph_ok (hc : s.calv = true) (h : s.slope ≠ 0)
    (hr : vToPh s.vinput.toInt s.slope.toInt s.v7.toInt = r) (hin : inRange r = true) :
    completeV2ph s = complete .ok { s with ph := fxPattern r } := by
  subst hr
  exact (if_neg (by simp [hc])).trans ((if_neg h).trans (if_pos hin))

theorem completeV2ph_overflow (hc : s.calv = true) (h : s.slope ≠ 0)
    (hr : vToPh s.vinput.toInt s.slope.toInt s.v7.toInt = r) (hin : ¬ inRange r = true) :
    completeV2ph s = raise .overflow s := by
  subst hr
  exact (if_neg (by simp [hc])).trans ((if_neg h).trans (if_neg hin))

theorem completeV2phu_divZero (h : s.thslope = 0) : completeV2phu s = raise .divZero s := if_pos h

theorem completeV2phu_ok (h : s.thslope ≠ 0) (hr : vToPhUncal s.vinput.toInt s.thslope.toInt = r)
    (hin : inRange r = true) : completeV2phu s = complete .ok { s with phu := fxPattern r } := by
  subst hr
  exact (if_neg h).trans (if_pos hin)

theorem completeV2phu_overflow (h : s.thslope ≠ 0) (hr : vToPhUncal s.vinput.toInt s.thslope.toInt = r)
    (hin : ¬ inRange r = true) : completeV2phu s = raise .overflow s := by
  subst hr
  exact (if_neg h).trans (if_neg hin)

end

/-! The two edges of an operation: the one that accepts it and the one in SC_EXEC -/

theorem exec_rd_scExec {op : HostOp} (n : BitVec 5) (g : Word) {s : State} (hs : s.st = .scExec)
    (hc : s.cmd = op.code) :
    exec (.rd n g) s = .next (latchRead n s (scResult op s)) := by
  rw [exec_rd, sequencer_scResult s.pins op hs hc]

/-- The state at the edge after the issue of an operation, under the pins of that edge. -/
def afterIssue (op : HostOp) (p : Pins) (s : State) : State := { issued op s with pins := p }

/-- An operation of unit SC, issued while idle, is in SC_EXEC for one edge, which computes its result (R200). -/
theorem sc_issue_then_read {op : HostOp} (hop : firstState op = .scExec) (x : BitVec 28) (n : BitVec 5) (g : Word)
    (p : Pins) {s : State} (hs : s.st = .idle) :
    ∃ s1 h, exec (op.instr x) s = .next s1 ∧ s1.st = .scExec ∧
      ∀ t, scResult op (afterIssue op p s) = t →
        exec (.rd n g) { s1 with pins := p } = .next { t with hRdata := h } := by
  have hcp : ¬ (op = .wrcfg ∨ op = .capture) := by rintro (rfl | rfl) <;> cases hop
  refine ⟨issued op s, (afterIssue op p s).readReg n, exec_op_accepted x hs fun h => absurd h hcp, hop, ?_⟩
  rintro t rfl
  exact exec_rd_scExec n g hop rfl

/-- An idle state written so that its FSM state can be read off. -/
theorem exists_idle_of_st {s : State} (hs : s.st = .idle) : ∃ s0 : State, s = { s0 with st := .idle } :=
  ⟨s, hs ▸ rfl⟩

/-! The five operations: the edges by `sc_issue_then_read`, the endings by the lemmas above -/

/-- Settles O41: a refused reference (`completeCode2v_config`) and a result (`completeCode2v_ok`). -/
theorem code2v : Obligations.Code2v := by
  intro s x n g p hs
  obtain ⟨s1, h, hissue, hst, hread⟩ := sc_issue_then_read (op := .code2v) rfl x n g p hs
  obtain ⟨s, rfl⟩ := exists_idle_of_st hs
  refine ⟨s1, h, hissue, hst, fun hext hneg => ?_, fun hok => ?_⟩
  · exact hread _ (completeCode2v_config (not_cfgOk_of_nonpos hext hneg))
  · exact hread _ (completeCode2v_ok ((cfgOk_iff _ _).2 hok) (codeToVoltage_eq _ _ _))

/-- Settles O42: a zero gain, a result in range, a result out of range. -/
theorem v2in : Obligations.V2in := by
  intro s x n g p hs
  obtain ⟨s1, h, hissue, hst, hread⟩ := sc_issue_then_read (op := .v2in) rfl x n g p hs
  obtain ⟨s, rfl⟩ := exists_idle_of_st hs
  refine ⟨s1, h, hissue, hst, fun hg => ?_, fun hg hlow hhigh => ?_, fun hg hout => ?_⟩
  · exact hread _ (completeV2in_divZero hg)
  · exact hread _ (completeV2in_ok hg (vToInput_eq _ _) ((inRange_iff _).2 ⟨hlow, hhigh⟩))
  · exact hread _ (completeV2in_overflow hg (vToInput_eq _ _) (not_inRange_of_outside hout))

/-- Settles O43: one calibration point twice, both results in range, one of them out of range. -/
theorem dcal : Obligations.Dcal := by
  intro s x n g p hs
  obtain ⟨s1, h, hissue, hst, hread⟩ := sc_issue_then_read (op := .dcal) rfl x n g p hs
  obtain ⟨s, rfl⟩ := exists_idle_of_st hs
  refine ⟨s1, h, hissue, hst, fun heq => ?_, fun hne hslope hz => ?_, fun hne hout => ?_⟩
  · exact hread _ (completeDcal_config heq)
  · exact hread _ (completeDcal_ok hne (calSlope_eq _ _ _ _) (calV7_eq _ _ _) ((inRange_iff _).2 hslope)
      ((inRange_iff _).2 hz))
  · exact hread _ (completeDcal_overflow hne (calSlope_eq _ _ _ _) (calV7_eq _ _ _)
      fun ⟨hslope, hz⟩ => hout ⟨(inRange_iff _).1 hslope, (inRange_iff _).1 hz⟩)

/-- Settles O44: no calibration, a zero slope, a result in range, a result out of range. -/
theorem v2ph : Obligations.V2ph := by
  intro s x n g p hs
  obtain ⟨s1, h, hissue, hst, hread⟩ := sc_issue_then_read (op := .v2ph) rfl x n g p hs
  obtain ⟨s, rfl⟩ := exists_idle_of_st hs
  refine ⟨s1, h, hissue, hst, fun hc => ?_, fun hc h0 => ?_, fun hc h0 hlow hhigh => ?_, fun hc h0 hout => ?_⟩
  · exact hread _ (completeV2ph_config hc)
  · exact hread _ (completeV2ph_divZero hc h0)
  · exact hread _ (completeV2ph_ok hc h0 (vToPh_eq _ _ _) ((inRange_iff _).2 ⟨hlow, hhigh⟩))
  · exact hread _ (completeV2ph_overflow hc h0 (vToPh_eq _ _ _) (not_inRange_of_outside hout))

/-- Settles O45: a zero slope, a result in range, a result out of range. -/
theorem v2phu : Obligations.V2phu := by
  intro s x n g p hs
  obtain ⟨s1, h, hissue, hst, hread⟩ := sc_issue_then_read (op := .v2phu) rfl x n g p hs
  obtain ⟨s, rfl⟩ := exists_idle_of_st hs
  refine ⟨s1, h, hissue, hst, fun h0 => ?_, fun h0 hlow hhigh => ?_, fun h0 hout => ?_⟩
  · exact hread _ (completeV2phu_divZero h0)
  · exact hread _ (completeV2phu_ok h0 (vToPhUncal_eq _ _) ((inRange_iff _).2 ⟨hlow, hhigh⟩))
  · exact hread _ (completeV2phu_overflow h0 (vToPhUncal_eq _ _) (not_inRange_of_outside hout))

/-! Every operation of unit SC at its edge in SC_EXEC -/

/-- An operation of unit SC ends with OK or with an error (R200). -/
theorem scResult_ends {op : HostOp} (hin : mayBeIn op .scExec = true) (s : State) :
    (∃ u, scResult op s = complete .ok u) ∨ ∃ e u, scResult op s = raise e u := by
  cases op
  case code2v => exact (completeCode2v_cases s).imp (fun ⟨_, he⟩ => ⟨_, he⟩) fun he => ⟨_, _, he⟩
  case v2in => exact (completeV2in_cases s).imp (fun ⟨_, he⟩ => ⟨_, he⟩) fun ⟨e, _, he⟩ => ⟨e, _, he⟩
  case dcal => exact (completeDcal_cases s).imp (fun ⟨_, _, he⟩ => ⟨_, he⟩) fun ⟨e, _, he⟩ => ⟨e, _, he⟩
  case v2ph => exact (completeV2ph_cases s).imp (fun ⟨_, he⟩ => ⟨_, he⟩) fun ⟨e, _, he⟩ => ⟨e, _, he⟩
  case v2phu => exact (completeV2phu_cases s).imp (fun ⟨_, he⟩ => ⟨_, he⟩) fun ⟨e, _, he⟩ => ⟨e, _, he⟩
  all_goals cases hin

theorem ErrorKind.outcome_ne_none (e : ErrorKind) : e.outcome ≠ .none := by cases e <;> exact nofun

theorem scResult_done_outcome {op : HostOp} (hin : mayBeIn op .scExec = true) (s : State) :
    (scResult op s).done = true ∧ (scResult op s).outcome ≠ .none := by
  obtain ⟨u, he⟩ | ⟨e, u, he⟩ := scResult_ends hin s <;> rw [he]
  · exact ⟨rfl, nofun⟩
  · exact ⟨rfl, e.outcome_ne_none⟩

/-- The op codes 8 to 12 are those of unit SC (R101). -/
theorem scOp_of_code {c : BitVec 4} (hlow : 8 ≤ c.toNat) (hhigh : c.toNat ≤ 12) :
    ∃ op, HostOp.ofCode c = some op ∧ mayBeIn op .scExec = true := by
  revert c
  decide

/-- Settles O46: a busy block takes the sequencer's edge whatever the instruction, and that of SC_EXEC ends. -/
theorem scEndsAtNextEdge : Obligations.ScEndsAtNextEdge := by
  intro i s t hs hlow hhigh ht
  obtain ⟨op, hop, hin⟩ := scOp_of_code hlow hhigh
  obtain ⟨p, e, h, sel, c, o, u, rfl⟩ := (exec_blockCase ht).sequencer_of_busy (by simp [hs])
  rw [sequencer_scExec p s hs, scExec_of_currentOp hop]
  exact ⟨scResult_st hin s, scResult_done_outcome hin s⟩

/-- In SC_EXEC the result of an operation is computed, or CMD names none of unit SC and the state holds (log 11). -/
theorem scExec_cases (s : State) :
    (∃ op, s.currentOp = some op ∧ mayBeIn op .scExec = true ∧ scExec s = scResult op s) ∨ scExec s = s := by
  cases hop : s.currentOp with
  | none =>
    unfold State.currentOp at hop
    exact .inr (by simp [scExec, hop])
  | some op =>
    have hres := scExec_of_currentOp hop
    cases op
    case code2v | v2in | dcal | v2ph | v2phu => exact .inl ⟨_, rfl, rfl, hres⟩
    all_goals exact .inr hres

/-- Nothing but the results, OUTCOME, DONE and the FSM state is written in SC_EXEC: no error of unit SC has a step
(R233). -/
theorem scExec_frame (s : State) : ∃ vo vi sl z c ph phu o d st, scExec s = { s with
    volts := vo, vinput := vi, slope := sl, v7 := z, calv := c, ph := ph, phu := phu,
    outcome := o, done := d, st := st } := by
  simp only [scExec, completeCode2v, completeV2in, completeDcal, completeV2ph, completeV2phu]
  (repeat' split) <;> exact ⟨_, _, _, _, _, _, _, _, _, _, rfl⟩

/-- Each result register is written by its own operation only, and a result only with OUTCOME OK (R197). -/
theorem scExec_register_kept_or_own (s : State) :
    ((scExec s).volts = s.volts ∨ s.cmd = 8 ∧ (scExec s).outcome = .ok) ∧
    ((scExec s).vinput = s.vinput ∨ s.cmd = 9 ∧ (scExec s).outcome = .ok) ∧
    ((scExec s).slope = s.slope ∧ (scExec s).v7 = s.v7 ∨ s.cmd = 10 ∧ (scExec s).outcome = .ok) ∧
    ((scExec s).calv = s.calv ∨ s.cmd = 10) ∧
    ((scExec s).ph = s.ph ∨ s.cmd = 11 ∧ (scExec s).outcome = .ok) ∧
    ((scExec s).phu = s.phu ∨ s.cmd = 12 ∧ (scExec s).outcome = .ok) := by
  obtain ⟨op, hop, -, -⟩ | hres := scExec_cases s
  · have hcmd := currentOp_eq_some.1 hop
    obtain ⟨hcal, hcalv, hvolts, hvinput, hph, hphu⟩ := scExec_writers hop
    simp only [or_iff_not_imp_left]
    refine ⟨fun hne => ?_, fun hne => ?_, fun hne => ?_, fun hne => ?_, fun hne => ?_, fun hne => ?_⟩
    · obtain ⟨rfl, ho⟩ := hvolts hne; exact ⟨hcmd, ho⟩
    · obtain ⟨rfl, ho⟩ := hvinput hne; exact ⟨hcmd, ho⟩
    · obtain ⟨rfl, ho⟩ := hcal (not_and_or.1 hne); exact ⟨hcmd, ho⟩
    · obtain rfl := hcalv hne; exact hcmd
    · obtain ⟨rfl, ho⟩ := hph hne; exact ⟨hcmd, ho⟩
    · obtain ⟨rfl, ho⟩ := hphu hne; exact ⟨hcmd, ho⟩
  · rw [hres]
    simp

/-- DCAL sets CALV with its results and clears it with an error (R205). -/
theorem scExec_calv_iff {s : State} (hc : s.cmd = 10) : (scExec s).calv = true ↔ (scExec s).outcome = .ok := by
  rw [scExec_of_currentOp (op := .dcal) (currentOp_eq_some.2 hc), scResult]
  obtain ⟨a, b, he⟩ | ⟨e, rfl | rfl, he⟩ := completeDcal_cases s <;> rw [he] <;> simp [ErrorKind.outcome]

/-- No request is driven in SC_EXEC nor after it (R197). -/
theorem tReqOut_of_scExec {s : State} (hs : s.st = .scExec) : s.tReqOut = false ∧ (scExec s).tReqOut = false := by
  have hno : s.tReqOut = false := (outputs_of_no_request (request_eq_none.2 (.inr (.inr hs)))).1
  obtain ⟨op, -, hin, hres⟩ | hres := scExec_cases s <;> rw [hres]
  · exact ⟨hno, (outputs_of_no_request (request_eq_none.2 (.inl (scResult_st hin s)))).1⟩
  · exact ⟨hno, hno⟩

/-- Settles O47: the edge in SC_EXEC, register by register. -/
theorem noPartialResults : Obligations.NoPartialResults := by
  intro s n g hs
  obtain ⟨hvolts, hvinput, hcal, hcalv, hph, hphu⟩ := scExec_register_kept_or_own s
  obtain ⟨hreq, hreq'⟩ := tReqOut_of_scExec hs
  have ht : exec (.rd n g) s = .next (latchRead n s (scExec s)) := by rw [exec_rd, sequencer_scExec _ s hs]
  refine ⟨_, ht, hreq, hreq', fun ho => ?_, fun hc => ?_, fun hc => ?_, fun hc => ?_, scExec_calv_iff, fun hc => ?_,
    fun hc => ?_, ?_⟩
  · obtain ⟨hslope, hv7⟩ := hcal.resolve_right fun h => ho h.2
    exact ⟨hvolts.resolve_right fun h => ho h.2, hvinput.resolve_right fun h => ho h.2, hslope, hv7,
      hph.resolve_right fun h => ho h.2, hphu.resolve_right fun h => ho h.2⟩
  · exact hvolts.resolve_right fun h => hc h.1
  · exact hvinput.resolve_right fun h => hc h.1
  · obtain ⟨hslope, hv7⟩ := hcal.resolve_right fun h => hc h.1
    exact ⟨hslope, hv7, hcalv.resolve_right hc⟩
  · exact hph.resolve_right fun h => hc h.1
  · exact hphu.resolve_right fun h => hc h.1
  · obtain ⟨_, _, _, _, _, _, _, _, _, _, he⟩ := scExec_frame s
    rw [he]
    rfl

end Sys2Proof.Machine
end

section
/-! PROOFS. Rounding toward zero is symmetric in sign (R9), and so are the formulas of unit SC (R202 to R211). -/

namespace Sys2Proof.Machine

theorem tdiv_neg_left (n d : Int) : tdiv (-n) d = -tdiv n d := by simp only [tdiv_eq, Int.neg_tdiv]

theorem fxDiv_neg_left (a b : Int) : fxDiv (-a) b = -fxDiv a b := by rw [fxDiv, neg_mul, tdiv_neg_left, fxDiv]

theorem fxMul_neg_right (a b : Int) : fxMul a (-b) = -fxMul a b := by rw [fxMul, mul_neg, tdiv_neg_left, fxMul]

theorem codeToVoltage_neg (code ref g : Int) : codeToVoltage (-code) ref g = -codeToVoltage code ref g := by
  rw [codeToVoltage, neg_mul, tdiv_neg_left, codeToVoltage]

theorem vToInput_neg (v gn : Int) : vToInput (-v) gn = -vToInput v gn := fxDiv_neg_left v gn

/-- The slope sees the voltages by their difference, which changes its sign with them. -/
theorem calSlope_neg (lp lv hp hv : Int) : calSlope lp (-lv) hp (-hv) = -calSlope lp lv hp hv := by
  have hdiff : -hv - -lv = -(hv - lv) := by ring
  rw [calSlope, hdiff, fxDiv_neg_left, calSlope]

theorem calV7_neg (lp lv slope : Int) : calV7 lp (-lv) (-slope) = -calV7 lp lv slope := by
  rw [calV7, fxMul_neg_right, ← neg_add, calV7]

theorem vToPhUncal_sub_seven (v th : Int) : vToPhUncal v th - seven = fxDiv v th := add_sub_cancel_left _ _

theorem vToPh_sub_seven (v slope z : Int) : vToPh v slope z - seven = fxDiv (v - z) slope := add_sub_cancel_left _ _

/-- Settles O51: each formula has one rounded quotient, whose numerator changes its sign with the voltages; what the
formula adds to it changes with them (the volts at pH 7) or is the constant 7. -/
theorem formulasAreOdd : Obligations.FormulasAreOdd := by
  intro v w
  refine ⟨codeToVoltage_neg v, vToInput_neg v, fun lp hp => calSlope_neg lp v hp w, fun lp => calV7_neg lp v w,
    fun th => ?_, fun slope => ?_⟩
  · rw [vToPhUncal_sub_seven, vToPhUncal_sub_seven, fxDiv_neg_left]
  · have hbelow : w - v - w = -v := by ring
    rw [vToPh_sub_seven, vToPh_sub_seven, hbelow, add_sub_cancel_left, fxDiv_neg_left]

end Sys2Proof.Machine
end
